-- ==== Sys2Proof/Word.lean ====
section
/-! DEFINITION. The two words of the block (rule R6: every quantity is an unsigned integer). -/

namespace Sys2Proof

/-- A byte, an unsigned integer in 0..255 (rule R6). -/
abbrev Byte := BitVec 8

/-- A command word `CMD`, 32 bits (rules R5 and R54). -/
abbrev Word := BitVec 32

end Sys2Proof
end

