-- ==== Sys2Proof/Config.lean ====
section
/-! DEFINITION. The parameters: those the document fixes (rule R4), those it leaves open or the spec adds
(rule R5), the environment's free deliveries (rule R99), and the host's literals that no source gives
(decision D26). A constant declared opaque has no value that a proof could use, so a claim holds for
every value of it. -/

namespace Sys2Proof.Config

/-- `CRC_WIDTH` (rule R4): the width of a byte. -/
abbrev crcWidth : Nat := 8
/-- `CRC_POLY` (rule R4). -/
abbrev crcPoly : Byte := 0x07
/-- `CRC_INIT` (rule R4). -/
abbrev crcInit : Byte := 0x00
/-- `CRC_REFLECT` (rule R4): bytes enter top bit first, and the result is not reversed. -/
abbrev crcReflect : Bool := false
/-- `ADDR_BITS` (rule R4). -/
abbrev addrBits : Nat := 6
/-- `ADDR_MAX`, the largest module address the encoder accepts (rule R4). -/
abbrev addrMax : Nat := 63
/-- The largest register number and third operand (rules R80, R112). -/
abbrev operandMax : Nat := 255
/-- `ADDR_UNADDRESSED` (rule R4). -/
abbrev addrUnaddressed : Nat := 0
/-- `ADDR_BROADCAST` (rule R4). -/
abbrev addrBroadcast : Nat := 63
/-- `ADDR_FIRST` (rule R4). -/
abbrev addrFirst : Nat := 1
/-- `ADDR_LAST` (rule R4, conflict C4). -/
abbrev addrLast : Nat := 62
/-- `REQ_LEN_READ` (rule R4). -/
abbrev reqLenRead : Nat := 3
/-- `REQ_LEN_WRITE` (rule R4). -/
abbrev reqLenWrite : Nat := 4
/-- `ECHO_LEN` (rule R4). -/
abbrev echoLen : Nat := 3
/-- `BAUD`, informative: no rule depends on it (rules R4, R147). -/
abbrev baud : Nat := 612500
/-- `CMD_WIDTH` (rule R5): the width of `Word`. -/
abbrev cmdWidth : Nat := 32
/-- The least `RX_CAP` rule R5 allows: 3 echo, 255 payload and 1 CRC byte. -/
abbrev rxCapMin : Nat := 259

/-- What the implementation chose for `RX_CAP` (rule R5, decision D12: OPEN): `none` for an unbounded
buffer, `some k` for a capacity of `259 + k` bytes. Log 9. -/
opaque rxCapExcess : Option Nat

/-- `RX_CAP`: `none` when unbounded, else an integer of at least 259 (rule R5). -/
def rxCap : Option Nat := rxCapExcess.map (rxCapMin + ·)

/-! ## Durations (rule R5, decision D15: OPEN), each "a positive duration" in an unstated unit. No rule of
the model depends on them: the model has no time (rule R146). Log 16. -/

/-- How much `T_SETTLE` exceeds the least positive duration. -/
opaque tSettleExcess : Nat
/-- How much `T_READ_TIMEOUT` exceeds the least positive duration. -/
opaque tReadTimeoutExcess : Nat

/-- `T_SETTLE`, the settle delay after transmission (rules R5, R93). -/
def tSettle : Nat := tSettleExcess + 1
/-- `T_READ_TIMEOUT`, the transport's read timeout (rules R5, R94). -/
def tReadTimeout : Nat := tReadTimeoutExcess + 1

/-! ## The environment that delivers for ever (rules R99, R102). Log 27. -/

/-- The first byte of its `n`-th delivery. -/
opaque endlessFirst : Nat → Byte
/-- The further bytes of its `n`-th delivery, any number of them. -/
opaque endlessMore : Nat → List Byte

/-- Its `n`-th delivery: at least one byte, and any. -/
def endlessDelivery (n : Nat) : List Byte := endlessFirst n :: endlessMore n

/-! ## Literals of the host (decision D26: OPEN). They do not affect the block. Log 22. -/

/-- `RESET_VALUE`, the value byte of the broadcast reset (rule R152). -/
opaque resetValue : Byte
/-- `RESET_ACK`, four bytes, the first in the high position (rule R152). -/
opaque resetAck : BitVec 32
/-- `DISCOVERY_SIGNATURE`, three bytes, the first in the high position (rule R152). -/
opaque discoverySignature : BitVec 24
/-- `PROBE_REGISTER` (rule R152). -/
opaque probeRegister : Byte
/-- `PROBE_COUNT` (rule R152). -/
opaque probeCount : Byte
/-- The first byte of the expected acknowledgment pattern of an address assignment (rule R152, N8). -/
opaque assignAckAddress : Byte
/-- The second byte, "command", of that pattern (rule R152, N8). -/
opaque assignAckCommand : Byte
/-- `ADC_CTRL_VALUE` (rule R151). -/
opaque adcCtrlValue : Byte
/-- `IO_CTRL_VALUE` (rule R151). -/
opaque ioCtrlValue : Byte
/-- `ADC_TRIGGER_VALUE` (rule R151). -/
opaque adcTriggerValue : Byte
/-- `BALANCE_DURATION_VALUE` (rule R154). -/
opaque balanceDurationValue : Byte
/-- `MAX_ATTEMPTS` (rules R141, R152). DESIGN CHOICE: no rule gives it a lower bound, and 0 is admitted,
with which rule R152's test `attempts = MAX_ATTEMPTS` is never met. Log 30. -/
opaque maxAttempts : Nat
/-- `RESET_RETRY_DELAY` (rule R152), a duration: the model has no time (log 16). -/
opaque resetRetryDelay : Nat
/-- `POLL_SETTLE_DELAY` (rule R153), a duration: the model has no time (log 16). -/
opaque pollSettleDelay : Nat

end Sys2Proof.Config
end

