-- ==== Sys2Proof/Syntax.lean ====
section
/-! DEFINITION. The instructions: one constructor per row of spec/opcode_table.json. The seven commands
of rule R55 come first, then the three wire-format rows of rules R50 and R52. The operands of a
command that rule R112 checks are natural numbers (rule R8: "they are unbounded"); `WellFormed` says
which of them the command word can carry. -/

namespace Sys2Proof

inductive Instr where
  /-- `CRC.INIT` (rule R72). -/
  | crcInit
  /-- `CRC.BYTE b` (rule R73). -/
  | crcByte (b : Byte)
  /-- `ENC a, r, v, w` (rule R81). -/
  | enc (a r v : Nat) (w : Bool)
  /-- `DEC b` (rule R83). -/
  | dec (b : Byte)
  /-- `RD a, r, n` (rule R96). -/
  | rd (a r n : Nat)
  /-- `RDNC a, r, n` (rule R97). -/
  | rdnc (a r n : Nat)
  /-- `WR a, r, v` (rule R98). -/
  | wr (a r v : Nat)
  /-- `FRAME.RDREQ a, r, n`: the 3-byte read request on the wire (rule R50). -/
  | frameRdReq (a : BitVec 6) (r n : Byte)
  /-- `FRAME.WRREQ a, r, v`: the 4-byte write request on the wire with its CRC byte `c` (rule R50). -/
  | frameWrReq (a : BitVec 6) (r v c : Byte)
  /-- `FRAME.RSP`: a response on the wire, echo, payload and trailing CRC byte (rule R52). -/
  | frameRsp (e0 e1 e2 : Byte) (payload : List Byte) (c : Byte)
  deriving DecidableEq, Repr

/-- The transactions: "one of RD, RDNC, WR" (rules R9, R18). -/
inductive TransOp where
  | rd
  | rdnc
  | wr
  deriving DecidableEq, Repr

/-- Where a bit pattern is presented: rule R54's command port, the line as a request (rule R50) or
the line as a response (rule R52). One and the same 32 bits can be a command word and a frame. -/
inductive Pattern where
  | command (w : Word)
  | request (bytes : List Byte)
  | response (bytes : List Byte)
  deriving DecidableEq, Repr

end Sys2Proof
end

