-- ==== Sys2Proof/Machine/Operands.lean ====
section
/-! DEFINITION. Operand forms: the fields of a command word (rules R54, R56), the operand check
(rules R80, R112), the address byte and its inverse (rules R51, R82), request frames (rule R80) and
the parts of a response (rules R85, R42, R37). -/

namespace Sys2Proof.Machine

/-! ## Fields of the command word (rules R54, R56) -/

/-- `OP = CMD[31:28]`. -/
def opField (w : Word) : BitVec 4 := w.extractLsb' 28 4
/-- `W = CMD[24]`. -/
def wField (w : Word) : Bool := w.getLsbD 24
/-- `A = CMD[23:16]`. -/
def aField (w : Word) : Byte := w.extractLsb' 16 8
/-- `R = CMD[15:8]`. -/
def rField (w : Word) : Byte := w.extractLsb' 8 8
/-- `V = CMD[7:0]`. -/
def vField (w : Word) : Byte := w.extractLsb' 0 8

/-- The command word with the fields `OP`, `W`, `A`, `R`, `V`, and `RSV = 0` (rule R54). -/
def commandWord (op : BitVec 4) (w : Bool) (a r v : Byte) : Word :=
  (op.setWidth 32 <<< 28) ||| ((BitVec.ofBool w).setWidth 32 <<< 24) ||| (a.setWidth 32 <<< 16) |||
    (r.setWidth 32 <<< 8) ||| v.setWidth 32

/-! ## The address byte (rules R51, R82) -/

/-- `trunc_8((a << 1) | w)`, rules R51, R56 and R80. -/
def addressByte (a : Nat) (w : Bool) : Byte :=
  BitVec.ofNat 8 ((a <<< 1) ||| (if w then 1 else 0))

/-- `addr = b[6:1]`, rule R82. -/
def addrField (b : Byte) : BitVec 6 := b.extractLsb' 1 6
/-- `wr = b[0]`, rule R82. -/
def wrField (b : Byte) : Bool := b.getLsbD 0
/-- `blk = b[7]`, rule R82. -/
def blkField (b : Byte) : Bool := b.getLsbD 7

/-- `decode_addr(b) = (blk, addr, wr)`, rule R82. -/
def decodeAddr (b : Byte) : Bool × BitVec 6 × Bool := (blkField b, addrField b, wrField b)

/-- `{blk, addr, wr}`: the three fields put together again (rules R82, R21). -/
def joinAddr (blk : Bool) (addr : BitVec 6) (wr : Bool) : Byte :=
  ((BitVec.ofBool blk).setWidth 8 <<< 7) ||| (addr.setWidth 8 <<< 1) ||| (BitVec.ofBool wr).setWidth 8

/-! ## Requests (rules R80, R112) -/

/-- The one condition of rule R112: `a > 63`, or `r > 255`, or the third operand `> 255`. -/
def argumentInvalid (a r v : Nat) : Bool :=
  decide (Config.addrMax < a) || decide (Config.operandMax < r) || decide (Config.operandMax < v)

/-- The first three bytes of a request (rule R80). -/
def requestHead (a r v : Nat) (w : Bool) : List Byte :=
  [addressByte a w, BitVec.ofNat 8 r, BitVec.ofNat 8 v]

/-- `encode_request(a, r, v, w)`, rule R80: none is the failure `InvalidArgument`. -/
def encodeRequest (a r v : Nat) (w : Bool) : Option (List Byte) :=
  if argumentInvalid a r v then none
  else if w then some (requestHead a r v w ++ [checksum (requestHead a r v w)])
  else some (requestHead a r v w)

/-- `w = 1` for WR, `w = 0` for RD and RDNC (rules R90, R91). -/
def transWrites : TransOp → Bool
  | .rd => false
  | .rdnc => false
  | .wr => true

/-! ## Responses (rules R37, R42, R52, R85) -/

/-- Echo, payload and trailing CRC of a response (rule R85). -/
structure Response where
  echo : List Byte
  payload : List Byte
  crc : Byte
  deriving DecidableEq, Repr

/-- `parse_response(s)`, rule R85; "For `len(s) < 4` the fields are not defined". -/
def parseResponse (s : List Byte) : Option Response :=
  if s.length < 4 then none
  else match s.getLast? with
    | none => none
    | some c => some { echo := s.take Config.echoLen, payload := s.dropLast.drop Config.echoLen, crc := c }

/-- Payload byte `k` of a response is `s[3 + k]` for `k < len(s) - 4` (rule R42). -/
def payloadByte (s : List Byte) (k : Nat) : Option Byte :=
  if k + 4 < s.length then s[Config.echoLen + k]? else none

/-- The 16-bit big-endian value at payload offset `k` (rule R37). -/
def be16 (payload : List Byte) (k : Nat) : Option (BitVec 16) :=
  match payload[k]?, payload[k + 1]? with
  | some hi, some lo => some ((hi.setWidth 16 <<< 8) ||| lo.setWidth 16)
  | _, _ => none

/-- The response of a module that conforms (rule R52, rule R100): the echo, the payload, and the
checksum of both. -/
def conformingResponse (echo payload : List Byte) : List Byte :=
  echo ++ payload ++ [checksum (echo ++ payload)]

end Sys2Proof.Machine
end

