-- ==== Sys2Proof/WellFormed.lean ====
section
/-! DEFINITION. Well-formed instructions: the operands a row of spec/opcode_table.json has room for,
and for the wire formats the CRC byte the row gives. An address of 64 to 255 is well formed: rule R54
makes the field "8 bits wide so that the out-of-range values 64..255 can be presented and refused". -/

namespace Sys2Proof

/-- An operand that fits the 8-bit field of the command word (rules R8, R54). -/
def fitsField (n : Nat) : Bool := decide (n ≤ 255)

/-- The well-formed instructions, as a check that can be run. -/
def Instr.wellFormed : Instr → Bool
  | .crcInit => true
  | .crcByte _ => true
  | .enc a r v _ => fitsField a && fitsField r && fitsField v
  | .dec _ => true
  | .rd a r n => fitsField a && fitsField r && fitsField n
  | .rdnc a r n => fitsField a && fitsField r && fitsField n
  | .wr a r v => fitsField a && fitsField r && fitsField v
  | .frameRdReq _ _ _ => true
  | .frameWrReq a r v c => c == Machine.checksum [Machine.joinAddr false a true, r, v]
  | .frameRsp e0 e1 e2 payload c =>
      decide (payload.length ≤ 255) && (c == Machine.checksum (e0 :: e1 :: e2 :: payload))

/-- The well-formed instructions. -/
abbrev Instr.WellFormed (i : Instr) : Prop := i.wellFormed = true

end Sys2Proof
end

