-- ==== Sys2Proof/Decode.lean ====
section
/-! DEFINITION. Decoding and encoding. A command word is decoded by the match and mask of rule R55, a
request frame by its length and its write bit (rules R50, R51, R53), a response by its layout (rule
R52). Decoding is total and rejects by name. -/

namespace Sys2Proof

open Sys2Proof.Machine

/-- Why a bit pattern is no instruction. -/
inductive DecodeError where
  /-- `OP` in 7..15 (rule R57). -/
  | reservedOpcode (op : BitVec 4)
  /-- A non-zero bit in a field that rule R54 says must be 0 for this `OP` (rule R57). -/
  | mustBeZero (op : BitVec 4)
  /-- A request whose `BLK` bit is 1: "no command can build such a frame" (U2, rule R51). -/
  | blkSet
  /-- A request whose length and write bit disagree (rule R53). -/
  | writeBitLength
  /-- A request of neither 3 nor 4 bytes (rule R50). -/
  | requestLength (n : Nat)
  /-- A response shorter than echo and CRC (rules R52, R85). -/
  | shortResponse (n : Nat)
  deriving DecidableEq, Repr

/-- A row of rule R55: a word `c` selects it exactly when `(c & mask) = match`. -/
structure Row where
  mnemonic : String
  pattern : Word
  mask : Word
  deriving DecidableEq, Repr

def rowCrcInit : Row := ⟨"CRC.INIT", 0x00000000, 0xFFFFFFFF⟩
def rowCrcByte : Row := ⟨"CRC.BYTE", 0x10000000, 0xFFFFFF00⟩
def rowEnc : Row := ⟨"ENC", 0x20000000, 0xFE000000⟩
def rowDec : Row := ⟨"DEC", 0x30000000, 0xFFFFFF00⟩
def rowRd : Row := ⟨"RD", 0x40000000, 0xFF000000⟩
def rowRdnc : Row := ⟨"RDNC", 0x50000000, 0xFF000000⟩
def rowWr : Row := ⟨"WR", 0x60000000, 0xFF000000⟩

/-- The command rows of rule R55, in the table's order. -/
def commandRows : List Row :=
  [rowCrcInit, rowCrcByte, rowEnc, rowDec, rowRd, rowRdnc, rowWr]

/-- `(c & mask) = match` (rule R55). -/
def Row.selects (row : Row) (c : Word) : Bool := (c &&& row.mask) == row.pattern

/-- Why a word that selects no row is illegal (rule R57). -/
def rejectCommand (c : Word) : DecodeError :=
  if 7 ≤ (opField c).toNat then .reservedOpcode (opField c) else .mustBeZero (opField c)

/-- The instruction of a command word (rules R55 to R57). -/
def decodeCommand (c : Word) : Except DecodeError Instr :=
  if rowCrcInit.selects c then .ok .crcInit
  else if rowCrcByte.selects c then .ok (.crcByte (vField c))
  else if rowEnc.selects c then
    .ok (.enc (aField c).toNat (rField c).toNat (vField c).toNat (wField c))
  else if rowDec.selects c then .ok (.dec (vField c))
  else if rowRd.selects c then .ok (.rd (aField c).toNat (rField c).toNat (vField c).toNat)
  else if rowRdnc.selects c then .ok (.rdnc (aField c).toNat (rField c).toNat (vField c).toNat)
  else if rowWr.selects c then .ok (.wr (aField c).toNat (rField c).toNat (vField c).toNat)
  else .error (rejectCommand c)

/-- The request frame on the wire (rules R50, R51, R53). The CRC byte of a write request is an operand
and is not judged here (rule R86 names the checks there are); `WellFormed` judges it: log 19. -/
def decodeRequest : List Byte → Except DecodeError Instr
  | [b0, r, n] =>
      if blkField b0 then .error .blkSet
      else if wrField b0 then .error .writeBitLength
      else .ok (.frameRdReq (addrField b0) r n)
  | [b0, r, v, c] =>
      if blkField b0 then .error .blkSet
      else if wrField b0 then .ok (.frameWrReq (addrField b0) r v c)
      else .error .writeBitLength
  | bytes => .error (.requestLength bytes.length)

/-- The response on the wire (rules R52, R85): at least an echo and a trailing CRC byte. -/
def decodeResponse : List Byte → Except DecodeError Instr
  | e0 :: e1 :: e2 :: p :: rest =>
      .ok (.frameRsp e0 e1 e2 (p :: rest).dropLast ((p :: rest).getLastD p))
  | bytes => .error (.shortResponse bytes.length)

/-- The instruction of a bit pattern, by where it is presented. -/
def decode : Pattern → Except DecodeError Instr
  | .command c => decodeCommand c
  | .request bytes => decodeRequest bytes
  | .response bytes => decodeResponse bytes

/-! ## Encoding -/

/-- The bit pattern of an instruction: command words by rule R54, frames by rules R50 to R52. DESIGN
CHOICE: of an operand above 255, for which the spec gives no word, the field takes the low 8 bits. Log
31. -/
def encode : Instr → Pattern
  | .crcInit => .command (commandWord 0 false 0 0 0)
  | .crcByte b => .command (commandWord 1 false 0 0 b)
  | .enc a r v w => .command (commandWord 2 w (BitVec.ofNat 8 a) (BitVec.ofNat 8 r) (BitVec.ofNat 8 v))
  | .dec b => .command (commandWord 3 false 0 0 b)
  | .rd a r n => .command (commandWord 4 false (BitVec.ofNat 8 a) (BitVec.ofNat 8 r) (BitVec.ofNat 8 n))
  | .rdnc a r n => .command (commandWord 5 false (BitVec.ofNat 8 a) (BitVec.ofNat 8 r) (BitVec.ofNat 8 n))
  | .wr a r v => .command (commandWord 6 false (BitVec.ofNat 8 a) (BitVec.ofNat 8 r) (BitVec.ofNat 8 v))
  | .frameRdReq a r n => .request [joinAddr false a false, r, n]
  | .frameWrReq a r v c => .request [joinAddr false a true, r, v, c]
  | .frameRsp e0 e1 e2 payload c => .response (e0 :: e1 :: e2 :: (payload ++ [c]))

/-! ## Words as spec/opcode_table.json numbers them -/

/-- The `n` bytes of a number, the high byte first: the table's wire rows have "byte 0 in the high
position". -/
def bytesHighFirst : Nat → Nat → List Byte
  | 0, _ => []
  | n + 1, w => BitVec.ofNat 8 (w / 256 ^ n) :: bytesHighFirst n w

/-- The bytes of a response, with the zero bytes that a shorter number of bits leaves out: the least
response has an echo and a CRC byte (rules R52, R85). -/
def responseBytes (n w : Nat) : List Byte :=
  bytesHighFirst n w ++ List.replicate (4 - n) 0x00

/-- Where an instruction of `nbits` bits is presented: 32 bits at the command port, unless they are
no command but are a write request; 24 bits as a read request; any other number of bits as a
response. Log 3. -/
def patternOf (nbits w : Nat) : Pattern :=
  if nbits = 32 then
    match decodeCommand (BitVec.ofNat 32 w), decodeRequest (bytesHighFirst 4 w) with
    | .error _, .ok _ => .request (bytesHighFirst 4 w)
    | _, _ => .command (BitVec.ofNat 32 w)
  else if nbits = 24 then .request (bytesHighFirst 3 w)
  else .response (responseBytes (nbits / 8) w)

/-- The instruction the decoder reads from the bits `w`, numbered as the table numbers them. -/
def decodeTableWord (nbits w : Nat) : Option Instr :=
  match decode (patternOf nbits w) with
  | .ok i => some i
  | .error _ => none

end Sys2Proof
end

