-- ==== Sys2Proof/Machine/State.lean ====
section
/-! DEFINITION. The state of the machine: every register of 10_state.md, the environment's state that
the block touches, and the model's own schedule. Plain data throughout. -/

namespace Sys2Proof.Machine

/-- `PHASE` (rule R17). Its numbers are in Machine/Flags.lean; 5 to 7 are "never taken" (U9). -/
inductive Phase where
  | idle
  | tx
  | settle
  | rx
  | check
  deriving DecidableEq, Repr

/-- `STATUS.CODE` (rules R19, R110). Its numbers are in Machine/Flags.lean; 6 and 7 are "never
produced" (U9). -/
inductive Code where
  | ok
  | crcMismatch
  | invalidArgument
  | noResponse
  | illegalCommand
  | rxOverflow
  deriving DecidableEq, Repr

/-- `OP_LATCH` (rule R18): its reset value 0, or the opcode of a transaction (U9). -/
inductive OpLatch where
  | zero
  | transaction (op : TransOp)
  deriving DecidableEq, Repr

/-- One move of one agent (rule R10). Log 1. -/
inductive Event where
  /-- The block takes the step of its phase (rules R91 to R95). -/
  | block
  /-- The host writes a host register: number 0x00 is `CMD` (rules R21, R54). -/
  | hostWrite (number : Nat) (value : Word)
  /-- The host reads a host register (rule R21). -/
  | hostRead (number : Nat)
  /-- The host reads `STATUS` until `DONE = 1` (`WAIT`, rule R61). Log 14. -/
  | hostWait
  /-- The environment delivers these bytes, one after the other (rule R23). Log 15. -/
  | deliver (bytes : List Byte)
  /-- The environment that delivers for ever (rule R102), at its `n`-th delivery: it delivers, the block
  moves, and it delivers again, without end. What stands behind it in the schedule is never reached. The
  bytes are free, at least one each time. DESIGN CHOICE, log 27. -/
  | deliverForever (n : Nat)
  /-- The reset input (rule R130). `sent` is the draw of how many bytes of the frame had reached the
  line when the reset fell into phase TX. Log 8. -/
  | reset (sent : Nat)
  /-- The transport's `open`, and whether it succeeded (rules R22, R132). DESIGN CHOICE: it may come
  again, when the transport is open already or in mid-transaction. Logs 7, 29. -/
  | openTransport (opened : Bool)
  deriving DecidableEq, Repr

/-- The machine. The first thirteen fields are the block's registers, the next three are the
environment's, the last two are the model's own. -/
structure State where
  /-- `CRC_ACC` (rule R13). -/
  crcAcc : Byte
  /-- `TXBUF[0..TXLEN]`; `TXLEN` is its length (rule R14). Log 5. -/
  txBuf : List Byte
  /-- `RXBUF[0..RXLEN]`; `RXLEN` is its length (rule R15). Log 5. -/
  rxBuf : List Byte
  /-- `DEC_ADDR` (rule R16). -/
  decAddr : BitVec 6
  /-- `DEC_WR` (rule R16). -/
  decWr : Bool
  /-- `DEC_BLK` (rule R16). -/
  decBlk : Bool
  /-- `PHASE` (rule R17). -/
  phase : Phase
  /-- `OP_LATCH` (rule R18). -/
  opLatch : OpLatch
  /-- `STATUS.DONE` (rule R19). -/
  done : Bool
  /-- `STATUS.RX_VALID` (rule R19). -/
  rxValid : Bool
  /-- `STATUS.CODE` (rule R19). -/
  code : Code
  /-- `CRC_RX` (rule R20). -/
  crcRx : Byte
  /-- `CRC_CALC` (rule R20). -/
  crcCalc : Byte
  /-- `RXFIFO`, oldest first (rule R23). -/
  rxFifo : List Byte
  /-- `LINE_TX` (rule R24). -/
  lineTx : List Byte
  /-- Whether the transport is open (rules R22, R132). Log 7. -/
  transportOpen : Bool
  /-- Who moves next, and with what (rules R10, R156). Log 1. The list is
  finite, and an event of it may stand for an environment that never stops (rule R102). Log 27. -/
  schedule : List Event
  /-- What the host's last register read returned (rule R21). Log 13. -/
  hostData : Nat
  deriving DecidableEq, Repr

/-- The machine right after reset: rule R27 for the registers and `LINE_TX`, rule R156 for the open
transport. DESIGN CHOICE: `RXFIFO` empty (log 6), the schedule empty (log 18), `hostData` zero
(log 13). -/
def State.reset : State where
  crcAcc := 0x00
  txBuf := []
  rxBuf := []
  decAddr := 0
  decWr := false
  decBlk := false
  phase := .idle
  opLatch := .zero
  done := false
  rxValid := false
  code := .ok
  crcRx := 0x00
  crcCalc := 0x00
  rxFifo := []
  lineTx := []
  transportOpen := true
  schedule := []
  hostData := 0

/-- The reasons a step stops the machine. -/
inductive Fault where
  /-- Raised by `step` on `openTransport false`: "If it cannot be opened the condition is
  Transport-Unavailable, fatal at startup, and the block must not be used" (rule R132). Safe: nothing
  is claimed of the block after it. -/
  | transportUnavailable
  deriving DecidableEq, Repr

/-- The reasons the model gives no meaning. -/
inductive Refusal where
  /-- Raised by `exec` for an instruction that has no meaning yet. Safe. No arm raises it. -/
  | notModelled (mnemonic : String)
  /-- Raised by every command, and by `step` for an illegal word, while `PHASE` is not `IDLE`: "a host
  program that tries is refused" (rule R91, D11, U15). Safe. Log 4. -/
  | commandWhileBusy
  /-- Raised by RD, RDNC and WR while the transport is not open: "a transaction issued before step 1
  has no defined outcome" (rule R132, U6). Safe. Log 7. -/
  | transportNotOpen
  /-- Raised by `step` on the host's read of a buffer byte without meaning: "a model gives such a read
  no meaning" (U3, rules R14, R15). Safe. Log 12. -/
  | readWithoutMeaning
  /-- Raised by FRAME.RDREQ and FRAME.WRREQ when the block is not in phase TX with that very frame in
  `TXBUF`: nothing else puts a request on the line (rules R92, R124). Safe. Log 2. -/
  | frameNotInTransmission
  deriving DecidableEq, Repr

/-- What one step or one instruction answers. -/
abbrev Result := Host.Outcome State Fault Refusal

end Sys2Proof.Machine
end

