-- ==== Sys2Proof/Machine/Flags.lean ====
section
/-! DEFINITION. The status register and the other registers that are views of stored fields: `STATUS`
(rule R19), `BUSY`, the numbers of `PHASE`, `CODE` and `OP_LATCH` (rules R17, R110, R18), `TXLEN`,
`RXLEN` and `DEC` (rule R21). -/

namespace Sys2Proof.Machine

/-- The number of a phase (rule R17). -/
def phaseNumber : Phase → BitVec 3
  | .idle => 0
  | .tx => 1
  | .settle => 2
  | .rx => 3
  | .check => 4

/-- The number of an outcome code (rule R110). -/
def codeNumber : Code → BitVec 3
  | .ok => 0
  | .crcMismatch => 1
  | .invalidArgument => 2
  | .noResponse => 3
  | .illegalCommand => 4
  | .rxOverflow => 5

/-- The opcode of a transaction (rule R55). -/
def transOpcode : TransOp → BitVec 4
  | .rd => 4
  | .rdnc => 5
  | .wr => 6

/-- The value of `OP_LATCH` (rule R18). -/
def latchNumber : OpLatch → BitVec 4
  | .zero => 0
  | .transaction op => transOpcode op

/-- `STATUS.BUSY`: "1 exactly when `PHASE != IDLE`" (rule R19). -/
def State.busy (s : State) : Bool := !decide (s.phase = .idle)

/-- `STATUS`, 8 bits: bit 0 BUSY, bit 1 DONE, bit 2 RX_VALID, bit 3 zero, bits 6:4 CODE, bit 7 zero
(rule R19). -/
def State.status (s : State) : Byte :=
  ((codeNumber s.code).setWidth 8 <<< 4) ||| ((BitVec.ofBool s.rxValid).setWidth 8 <<< 2) |||
    ((BitVec.ofBool s.done).setWidth 8 <<< 1) ||| (BitVec.ofBool s.busy).setWidth 8

/-- `TXLEN` (rule R14). -/
def State.txLen (s : State) : Nat := s.txBuf.length

/-- `RXLEN` (rule R15). -/
def State.rxLen (s : State) : Nat := s.rxBuf.length

/-- `DEC = {DEC_BLK, DEC_ADDR, DEC_WR}` (rule R21). -/
def State.decByte (s : State) : Byte := joinAddr s.decBlk s.decAddr s.decWr

end Sys2Proof.Machine
end

