-- ==== Sys2Proof/Machine/Ops.lean ====
section
/-! DEFINITION. The named operations on the state that the meanings are made of: ending a command,
raising a fault (rule R119), the transport's calls (rules R7, R22, R23), the acceptance of a
transaction (rule R91), the phases' updates (rules R92 to R95) and the reset input (rule R130). -/

namespace Sys2Proof.Machine

/-! ## Ending a command -/

/-- `STATUS.CODE <- OK ; STATUS.DONE <- 1` (rules R72, R73, R81, R83). -/
def State.finishOk (s : State) : State := { s with done := true, code := .ok }

/-- What raised a fault: a transaction, `ENC`, or an illegal word (rule R119). -/
inductive FaultSource where
  | transaction
  | enc
  | word
  deriving DecidableEq, Repr

/-- `raise` of a transaction (rule R119): the code, the collected bytes withheld, done, idle. -/
def State.raiseTransaction (c : Code) (s : State) : State :=
  { s with code := c, rxValid := false, rxBuf := [], done := true, phase := .idle }

/-- `raise` of `ENC` (rules R119, R81): only the code, done, and `TXLEN <- 0`. -/
def State.raiseEnc (c : Code) (s : State) : State :=
  { s with code := c, done := true, txBuf := [] }

/-- `raise` of an illegal word (rules R119, R114): only the code and done. -/
def State.raiseWord (c : Code) (s : State) : State := { s with code := c, done := true }

/-- Taking a fault (rule R119). Nothing is vectored and nothing is saved, and there is no return
(rule R120): the block is in IDLE and takes the next command. -/
def State.raise (source : FaultSource) (c : Code) (s : State) : State :=
  match source with
  | .transaction => s.raiseTransaction c
  | .enc => s.raiseEnc c
  | .word => s.raiseWord c

/-- "A command word is accepted only when `PHASE = IDLE`"; otherwise the host program is refused
(rule R91, D11). Log 4. -/
def whenIdle (s : State) (accepted : Result) : Result :=
  if s.phase = .idle then accepted else .refused .commandWhileBusy

/-! ## The generator, the codec -/

/-- `CRC_ACC <- v`. -/
def State.setCrcAcc (v : Byte) (s : State) : State := { s with crcAcc := v }

/-- `TXBUF[0..len(f)] <- f ; TXLEN <- len(f)` (rules R81, R91). -/
def State.setTxBuf (f : List Byte) (s : State) : State := { s with txBuf := f }

/-- `DEC_BLK <- blk ; DEC_ADDR <- addr ; DEC_WR <- wr` (rule R83). -/
def State.setDec (blk : Bool) (addr : BitVec 6) (wr : Bool) (s : State) : State :=
  { s with decBlk := blk, decAddr := addr, decWr := wr }

/-! ## The transport (rules R7, R22 to R24) -/

/-- The environment's step deliver(b), for each byte in turn (rule R23). -/
def State.deliver (bytes : List Byte) (s : State) : State := { s with rxFifo := s.rxFifo ++ bytes }

/-- `TransportWrite(f)`: "it appends `s` to `LINE_TX`" (rules R7, R24). Nothing appears in `RXFIFO`
(rule R24, D17, log 17). -/
def State.transportWrite (f : List Byte) (s : State) : State := { s with lineTx := s.lineTx ++ f }

/-- `open` of the transport succeeded (rules R22, R132). -/
def State.openTransport (s : State) : State := { s with transportOpen := true }

/-! ## The transceiver -/

/-- `PHASE <- p`. -/
def State.setPhase (p : Phase) (s : State) : State := { s with phase := p }

/-- The clearing that acceptance of a transaction does first (rule R91). -/
def State.clearForTransaction (s : State) : State :=
  { s with done := false, rxValid := false, code := .ok, rxBuf := [], crcRx := 0x00, crcCalc := 0x00,
           txBuf := [] }

/-- The second half of acceptance, with the frame built (rule R91):
`TXBUF[0..len(f)] <- f ; TXLEN <- len(f) ; OP_LATCH <- OP ; PHASE <- TX`. -/
def State.startTransaction (op : TransOp) (f : List Byte) (s : State) : State :=
  { s with txBuf := f, opLatch := .transaction op, phase := .tx }

/-- Phase TX (rule R92): `TransportWrite(TXBUF[0..TXLEN]) ; PHASE <- SETTLE`. -/
def State.transmit (s : State) : State := (s.transportWrite s.txBuf).setPhase .settle

/-- `RXLEN = RX_CAP` (rule R94), for a buffer that holds `n` bytes. Below the least capacity of rule R5
it is false whatever the capacity is. -/
def rxFull (n : Nat) : Bool :=
  if n < Config.rxCapMin then false
  else match Config.rxCapExcess with
    | none => false
    | some k => n == Config.rxCapMin + k

/-- `RXBUF[RXLEN] <- TransportRead1() ; RXLEN <- RXLEN + 1` (rule R94), with `b` the oldest waiting
byte and `rest` the others. -/
def State.takeByte (b : Byte) (rest : List Byte) (s : State) : State :=
  { s with rxBuf := s.rxBuf ++ [b], rxFifo := rest }

/-- One step of phase RX (rule R94). -/
def State.collect (s : State) : State :=
  match s.rxFifo with
  | [] => s.setPhase .check
  | b :: rest => if rxFull s.rxLen then s.raise .transaction .rxOverflow else s.takeByte b rest

/-- `STATUS.RX_VALID <- 1 ; STATUS.CODE <- OK ; STATUS.DONE <- 1 ; PHASE <- IDLE` (rule R95). -/
def State.completeTransaction (s : State) : State :=
  { s with rxValid := true, code := .ok, done := true, phase := .idle }

/-- `CRC_RX <- claimed ; CRC_CALC <- computed` (rule R95). -/
def State.setCrcPair (claimed computed : Byte) (s : State) : State :=
  { s with crcRx := claimed, crcCalc := computed }

/-- The judgement of RD and WR in phase CHECK (rule R95). -/
def State.checkCrc (s : State) : State :=
  match crcPair s.rxBuf with
  | none => s.raise .transaction .noResponse
  | some (claimed, computed) =>
      if claimed = computed then (s.setCrcPair claimed computed).completeTransaction
      else (s.setCrcPair claimed computed).raise .transaction .crcMismatch

/-- Phase CHECK (rule R95). -/
def State.check (s : State) : State :=
  if s.opLatch = .transaction .rdnc then s.completeTransaction else s.checkCrc

/-! ## Reset (rules R130, R131) -/

/-- The bytes of the frame that had reached the line when reset fell into phase TX: "the frame may
have been sent in part or in whole" (rule R130). In every other phase the line already shows what was
sent. Log 8. -/
def State.sentAtReset (sent : Nat) (s : State) : List Byte :=
  if s.phase = .tx then s.txBuf.take sent else []

/-- The reset input: every register takes its value of rule R27; the environment's state stays
(rule R131), but for the bytes of `sentAtReset`. -/
def State.resetBlock (sent : Nat) (s : State) : State :=
  { State.reset with
      rxFifo := s.rxFifo, lineTx := s.lineTx ++ s.sentAtReset sent, transportOpen := s.transportOpen,
      schedule := s.schedule, hostData := s.hostData }

/-! ## The schedule and the host -/

/-- Replace the schedule. -/
def State.withSchedule (es : List Event) (s : State) : State := { s with schedule := es }

/-- What a register read gives to the host. -/
def State.setHostData (v : Nat) (s : State) : State := { s with hostData := v }

end Sys2Proof.Machine
end

