-- ==== Sys2Proof/Machine/Codec.lean ====
section
/-! DEFINITION. The frame codec's commands: ENC and DEC (41_frame_codec.md). -/

namespace Sys2Proof.Machine

/-- `ENC a, r, v, w` (rule R81): a frame into `TXBUF`, or `INVALID_ARGUMENT` with `TXLEN <- 0`. -/
def execEnc (a r v : Nat) (w : Bool) (s : State) : Result :=
  whenIdle s
    (match encodeRequest a r v w with
      | none => .next (s.raise .enc .invalidArgument)
      | some f => .next (s.setTxBuf f).finishOk)

/-- `DEC b` (rule R83): the three fields of an address byte. -/
def execDec (b : Byte) (s : State) : Result :=
  whenIdle s (.next (s.setDec (blkField b) (addrField b) (wrField b)).finishOk)

end Sys2Proof.Machine
end

