-- ==== Sys2Proof/Machine/Generator.lean ====
section
/-! DEFINITION. The CRC generator's commands: CRC.INIT and CRC.BYTE (40_crc.md). -/

namespace Sys2Proof.Machine

/-- `CRC.INIT` (rule R72): `CRC_ACC <- 0x00`. -/
def execCrcInit (s : State) : Result :=
  whenIdle s (.next (s.setCrcAcc Config.crcInit).finishOk)

/-- `CRC.BYTE b` (rule R73): `CRC_ACC <- crc_byte(CRC_ACC, b)`. -/
def execCrcByte (b : Byte) (s : State) : Result :=
  whenIdle s (.next (s.setCrcAcc (crcByte s.crcAcc b)).finishOk)

end Sys2Proof.Machine
end

