-- ==== Sys2Proof/Machine/Transceiver.lean ====
section
/-! DEFINITION. The bus transceiver's commands: the acceptance of RD, RDNC and WR (rules R91, R96 to
R98). The phases that follow are steps of the block (Machine/Step.lean) over the operations of
Machine/Ops.lean. -/

namespace Sys2Proof.Machine

/-- What acceptance of a transaction leaves (rule R91): the frame ready in phase TX, or
`INVALID_ARGUMENT` with nothing sent. -/
def State.acceptTransaction (op : TransOp) (a r v : Nat) (s : State) : State :=
  match encodeRequest a r v (transWrites op) with
  | none => s.clearForTransaction.raise .transaction .invalidArgument
  | some f => s.clearForTransaction.startTransaction op f

/-- Presenting a transaction: accepted only in IDLE (rule R91), and without a defined outcome before
the transport is open (rule R132, U6). -/
def execTransaction (op : TransOp) (a r v : Nat) (s : State) : Result :=
  whenIdle s
    (if s.transportOpen then .next (s.acceptTransaction op a r v) else .refused .transportNotOpen)

/-- `RD a, r, n` (rule R96). -/
def execRd (a r n : Nat) (s : State) : Result := execTransaction .rd a r n s

/-- `RDNC a, r, n` (rule R97). -/
def execRdnc (a r n : Nat) (s : State) : Result := execTransaction .rdnc a r n s

/-- `WR a, r, v` (rule R98). -/
def execWr (a r v : Nat) (s : State) : Result := execTransaction .wr a r v s

end Sys2Proof.Machine
end

