-- ==== Sys2Proof/Machine/Wire.lean ====
section
/-! DEFINITION. The wire formats as instructions (rules R50, R52; log 2). A request frame is on the
line exactly when the block transmits it: phase TX with that frame in `TXBUF` (rule R92), nobody else
sends requests (rule R124). A response frame is on the line when the environment delivers it, which it
may at every moment (rules R23, R99). -/

namespace Sys2Proof.Machine

/-- The transmission of the frame `f` (rule R92). -/
def sendFrame (f : List Byte) (s : State) : Result :=
  if s.phase = .tx ∧ s.txBuf = f then .next s.transmit else .refused .frameNotInTransmission

/-- `FRAME.RDREQ a, r, n` (rules R50, R92). -/
def execFrameRdReq (a : BitVec 6) (r n : Byte) (s : State) : Result :=
  sendFrame [joinAddr false a false, r, n] s

/-- `FRAME.WRREQ a, r, v` with CRC byte `c` (rules R50, R92). -/
def execFrameWrReq (a : BitVec 6) (r v c : Byte) (s : State) : Result :=
  sendFrame [joinAddr false a true, r, v, c] s

/-- `FRAME.RSP` (rules R52, R23): the response's bytes enter `RXFIFO` in order. -/
def execFrameRsp (e0 e1 e2 : Byte) (payload : List Byte) (c : Byte) (s : State) : Result :=
  .next (s.deliver (e0 :: e1 :: e2 :: (payload ++ [c])))

end Sys2Proof.Machine
end

