-- ==== Sys2Proof/Machine/Dispatch.lean ====
section
/-! DEFINITION. The meaning of every instruction, one arm per constructor. -/

namespace Sys2Proof.Machine

def exec (i : Instr) (s : State) : Host.Outcome State Fault Refusal :=
  match i with
  | .crcInit => Sys2Proof.Machine.execCrcInit s
  | .crcByte b => Sys2Proof.Machine.execCrcByte b s
  | .enc a r v w => Sys2Proof.Machine.execEnc a r v w s
  | .dec b => Sys2Proof.Machine.execDec b s
  | .rd a r n => Sys2Proof.Machine.execRd a r n s
  | .rdnc a r n => Sys2Proof.Machine.execRdnc a r n s
  | .wr a r v => Sys2Proof.Machine.execWr a r v s
  | .frameRdReq a r n => Sys2Proof.Machine.execFrameRdReq a r n s
  | .frameWrReq a r v c => Sys2Proof.Machine.execFrameWrReq a r v c s
  | .frameRsp e0 e1 e2 payload c => Sys2Proof.Machine.execFrameRsp e0 e1 e2 payload c s

end Sys2Proof.Machine
end

