-- ==== Sys2Proof/Machine/Registers.lean ====
section
/-! DEFINITION. The numbered host registers (rule R21) and what a read of one returns. -/

namespace Sys2Proof.Machine

/-- `i < RX_CAP`: the number 0x1000 + i is in the table of rule R21. -/
def inRxWindow (i : Nat) : Bool :=
  if i < Config.rxCapMin then true
  else match Config.rxCapExcess with
    | none => true
    | some k => decide (i < Config.rxCapMin + k)

/-- A read of `TXBUF[i]`: meaningful only for `i < TXLEN` (rule R14, U3). -/
def State.readTxBuf (i : Nat) (s : State) : Option Nat := (s.txBuf[i]?).map BitVec.toNat

/-- A read of `RXBUF[i]`: meaningful only for `i < RXLEN` and `RX_VALID = 1` (rules R15, R150, U3); a
number past `RX_CAP` is not in the table and reads 0 (rule R21). -/
def State.readRxBuf (i : Nat) (s : State) : Option Nat :=
  if inRxWindow i then (if s.rxValid then (s.rxBuf[i]?).map BitVec.toNat else none) else some 0

/-- The value a host read returns (rule R21); none where the spec gives the read no meaning (U3).
Reading has no side effect. -/
def State.readRegister (number : Nat) (s : State) : Option Nat :=
  if number = 0x01 then some s.status.toNat
  else if number = 0x02 then some s.crcAcc.toNat
  else if number = 0x03 then some s.crcRx.toNat
  else if number = 0x04 then some s.crcCalc.toNat
  else if number = 0x05 then some s.txLen
  else if number = 0x06 then some s.rxLen
  else if number = 0x07 then some s.decByte.toNat
  else if number = 0x08 then some (phaseNumber s.phase).toNat
  else if 0x10 ≤ number ∧ number ≤ 0x13 then s.readTxBuf (number - 0x10)
  else if 0x1000 ≤ number then s.readRxBuf (number - 0x1000)
  else some 0

end Sys2Proof.Machine
end

