-- ==== Sys2Proof/Machine/Step.lean ====
section
/-! DEFINITION. One step: the agent at the head of the schedule moves (rule R10, log 1). With an empty
schedule the block moves on, or waits in IDLE (rule R130, log 20). -/

namespace Sys2Proof.Machine

/-- The block's own step (rules R91 to R95). In phase TX it runs the request frame that `TXBUF` holds;
a `TXBUF` that holds no request frame (no run reaches that) is sent as it stands (rule R92, log 24).
The step from SETTLE to RX is always enabled (rule R93, log 16). -/
def blockStep (s : State) : Result :=
  match s.phase with
  | .idle => .next s
  | .tx =>
      match decodeRequest s.txBuf with
      | .ok i => exec i s
      | .error _ => .next s.transmit
  | .settle => .next (s.setPhase .rx)
  | .rx => .next s.collect
  | .check => .next s.check

/-- The host presents a word at `CMD` (rules R54, R91): a word that selects a row runs, any other
raises `ILLEGAL_COMMAND` (rules R57, R114). -/
def presentCommand (c : Word) (s : State) : Result :=
  match decodeCommand c with
  | .ok i => exec i s
  | .error _ => whenIdle s (.next (s.raise .word .illegalCommand))

/-- The host writes a register: number 0x00 is `CMD`, any other write is ignored (rule R21, log 11). -/
def hostWrite (number : Nat) (value : Word) (s : State) : Result :=
  if number = 0x00 then presentCommand value s else .next s

/-- The host reads a register (rule R21); a read without meaning is refused (U3, log 12). -/
def hostRead (number : Nat) (s : State) : Result :=
  match s.readRegister number with
  | some v => .next (s.setHostData v)
  | none => .refused .readWithoutMeaning

/-- The environment delivers (rule R23): a whole response is FRAME.RSP, shorter deliveries are plain. -/
def deliverBytes (bytes : List Byte) (s : State) : Result :=
  match decodeResponse bytes with
  | .ok i => exec i s
  | .error _ => .next (s.deliver bytes)

/-- One move of one agent. `rest` is the schedule after it. DESIGN CHOICE: an opening of the transport is
taken whenever it comes: success leaves an open transport open, failure stops the machine (log 29). -/
def moveEvent (e : Event) (rest : List Event) (s : State) : Result :=
  match e with
  | .block => blockStep (s.withSchedule rest)
  | .hostWrite number value => hostWrite number value (s.withSchedule rest)
  | .hostRead number => hostRead number (s.withSchedule rest)
  | .hostWait => if s.done then hostRead 0x01 (s.withSchedule rest) else blockStep s
  | .deliver bytes => deliverBytes bytes (s.withSchedule rest)
  | .deliverForever n =>
      .next ((s.withSchedule (.block :: .deliverForever (n + 1) :: rest)).deliver
        (Config.endlessDelivery n))
  | .reset sent => .next ((s.withSchedule rest).resetBlock sent)
  | .openTransport opened =>
      if opened then .next (s.withSchedule rest).openTransport else .fault .transportUnavailable

/-- One step of the machine: the head of the schedule, or the block. -/
def step (s : State) : Host.Outcome State Fault Refusal :=
  match s.schedule with
  | [] => blockStep s
  | e :: rest => moveEvent e rest s

/-! ## Placing an instruction where the next step fetches it (log 18) -/

/-- A request of four bytes is a write (rule R53). -/
def latchOfRequest (bytes : List Byte) : OpLatch :=
  if bytes.length = Config.reqLenWrite then .transaction .wr else .transaction .rd

/-- Put a bit pattern where the next step takes it from: a command at `CMD`, a request frame in
`TXBUF` with the block about to transmit it, a response about to be delivered. -/
def State.place (p : Pattern) (s : State) : State :=
  match p with
  | .command c => s.withSchedule (.hostWrite 0x00 c :: s.schedule)
  | .request bytes =>
      { s with txBuf := bytes, phase := .tx, opLatch := latchOfRequest bytes,
               schedule := .block :: s.schedule }
  | .response bytes => s.withSchedule (.deliver bytes :: s.schedule)

/-- The state with the instruction of these bits where the next step fetches it. -/
def State.withFetchWord (s : State) (nbits w : Nat) : State := s.place (patternOf nbits w)

end Sys2Proof.Machine
end

