-- ==== Sys2Proof/Machine/Pseudo.lean ====
section
/-! DEFINITION. The pseudo-instructions (rule R61) and a host program as a schedule (rule R156). -/

namespace Sys2Proof.Machine

/-- `CHECKSUM b0, .., b(k-1)` (rules R61, R74). -/
def checksumProgram (s : List Byte) : List Instr := .crcInit :: s.map .crcByte

/-- `BCAST r, v` (rule R61). -/
def bcast (r v : Nat) : Instr := .wr Config.addrBroadcast r v

/-- `PROBE r, n` (rule R61). -/
def probe (r n : Nat) : Instr := .rdnc Config.addrUnaddressed r n

/-- The command of a transaction (rules R96 to R98). -/
def transInstr (op : TransOp) (a r v : Nat) : Instr :=
  match op with
  | .rd => .rd a r v
  | .rdnc => .rdnc a r v
  | .wr => .wr a r v

/-- The byte a CRC.BYTE command brings, when the event presents one (rule R73). -/
def crcByteOfEvent : Event → List Byte
  | .block => []
  | .hostWrite number value =>
      if number = 0x00 ∧ rowCrcByte.selects value = true then [vField value] else []
  | .hostRead _ => []
  | .hostWait => []
  | .deliver _ => []
  | .deliverForever _ => []
  | .reset _ => []
  | .openTransport _ => []

/-- The bytes that the CRC.BYTE commands of a schedule bring, in order (rule R74). -/
def crcBytesOfEvents (es : List Event) : List Byte := es.flatMap crcByteOfEvent

/-- The events that start the accumulator anew: CRC.INIT and reset (rules R72, R130). -/
def restartsCrc : Event → Bool
  | .block => false
  | .hostWrite number value => decide (number = 0x00) && rowCrcInit.selects value
  | .hostRead _ => false
  | .hostWait => false
  | .deliver _ => false
  | .deliverForever _ => false
  | .reset _ => true
  | .openTransport _ => false

/-- The host's presentation of a command: a write of its word to `CMD` (rule R54). A wire format is no
command, so the host presents nothing for it. DESIGN CHOICE: a command with an operand above 255, which
no word carries, is presented with the operand's low 8 bits. Log 31. -/
def presentEvents (i : Instr) : List Event :=
  match encode i with
  | .command c => [.hostWrite 0x00 c]
  | .request _ => []
  | .response _ => []

/-- The events by which the host issues a command word, legal or not (rules R54, R156). -/
def presentsCommand : Event → Bool
  | .block => false
  | .hostWrite number _ => decide (number = 0x00)
  | .hostRead _ => false
  | .hostWait => false
  | .deliver _ => false
  | .deliverForever _ => false
  | .reset _ => false
  | .openTransport _ => false

/-- A host program as the host must run it (rule R150): each command is presented and its `DONE`
awaited before the next. -/
def programEvents : List Instr → List Event
  | [] => []
  | i :: rest => presentEvents i ++ .hostWait :: programEvents rest

end Sys2Proof.Machine
end

