-- ==== Sys2Proof/Machine/Assembler.lean ====
section
/-! DEFINITION. The assembler's text (rules R60, R61): one command per line, its operands separated by
commas, numbers in decimal, `0x` hexadecimal or `0b` binary, a `;` starts a comment. What rule R60
leaves open (blanks, letter case) is in log 23. -/

namespace Sys2Proof.Machine

/-- The value of a digit character, below 16. -/
def digitValue (c : Char) : Option Nat :=
  let n := c.toNat
  if 48 ≤ n ∧ n ≤ 57 then some (n - 48)
  else if 65 ≤ n ∧ n ≤ 70 then some (n - 55)
  else if 97 ≤ n ∧ n ≤ 102 then some (n - 87)
  else none

/-- The value of a run of digits in a base, after the digits already read. -/
def digitsFrom (base : Nat) : Nat → List Char → Option Nat
  | acc, [] => some acc
  | acc, c :: cs =>
      match digitValue c with
      | none => none
      | some d => if d < base then digitsFrom base (acc * base + d) cs else none

/-- A number with at least one digit. -/
def digits (base : Nat) : List Char → Option Nat
  | [] => none
  | c :: cs => digitsFrom base 0 (c :: cs)

/-- A number in one of the three notations (rule R60). -/
def parseNumber : List Char → Option Nat
  | '0' :: 'x' :: cs => digits 16 cs
  | '0' :: 'b' :: cs => digits 2 cs
  | cs => digits 10 cs

def isBlank (c : Char) : Bool := c == ' ' || c == '\t'

/-- Drop the blanks at both ends. -/
def trimBlanks (cs : List Char) : List Char :=
  ((cs.dropWhile isBlank).reverse.dropWhile isBlank).reverse

/-- Cut at every comma. -/
def splitCommas : List Char → List (List Char)
  | [] => [[]]
  | c :: cs =>
      match splitCommas cs with
      | [] => [[c]]
      | field :: fields => if c == ',' then [] :: field :: fields else (c :: field) :: fields

/-- All of the numbers, or none. -/
def parseNumbers : List (List Char) → Option (List Nat)
  | [] => some []
  | field :: fields =>
      match parseNumber (trimBlanks field), parseNumbers fields with
      | some n, some ns => some (n :: ns)
      | _, _ => none

/-- The operands: none at all, or numbers separated by commas. -/
def parseOperands (cs : List Char) : Option (List Nat) :=
  if (trimBlanks cs).isEmpty then some [] else parseNumbers (splitCommas cs)

/-- The operand as a byte, where it is one. -/
def byteOperand (n : Nat) : Option Byte := if n ≤ 255 then some (BitVec.ofNat 8 n) else none

/-- All of the operands as bytes. -/
def byteOperands : List Nat → Option (List Byte)
  | [] => some []
  | n :: ns =>
      match byteOperand n, byteOperands ns with
      | some b, some bs => some (b :: bs)
      | _, _ => none

/-- What the events of a well-formed command are. -/
def commandEvents (i : Instr) : Option (List Event) :=
  if i.wellFormed then some (presentEvents i) else none

/-- A mnemonic of rule R55 or rule R61 with its operands. -/
def assembleCommand (mnemonic : String) (operands : List Nat) : Option (List Event) :=
  if mnemonic = "CRC.INIT" then
    match operands with
    | [] => commandEvents .crcInit
    | _ => none
  else if mnemonic = "CRC.BYTE" then
    match byteOperands operands with
    | some [b] => commandEvents (.crcByte b)
    | _ => none
  else if mnemonic = "ENC" then
    match operands with
    | [a, r, v, 0] => commandEvents (.enc a r v false)
    | [a, r, v, 1] => commandEvents (.enc a r v true)
    | _ => none
  else if mnemonic = "DEC" then
    match byteOperands operands with
    | some [b] => commandEvents (.dec b)
    | _ => none
  else if mnemonic = "RD" then
    match operands with
    | [a, r, n] => commandEvents (.rd a r n)
    | _ => none
  else if mnemonic = "RDNC" then
    match operands with
    | [a, r, n] => commandEvents (.rdnc a r n)
    | _ => none
  else if mnemonic = "WR" then
    match operands with
    | [a, r, v] => commandEvents (.wr a r v)
    | _ => none
  else if mnemonic = "CHECKSUM" then
    match byteOperands operands with
    | some bs => some ((checksumProgram bs).flatMap presentEvents)
    | none => none
  else if mnemonic = "WAIT" then
    match operands with
    | [] => some [.hostWait]
    | _ => none
  else if mnemonic = "BCAST" then
    match operands with
    | [r, v] => commandEvents (bcast r v)
    | _ => none
  else if mnemonic = "PROBE" then
    match operands with
    | [r, n] => commandEvents (probe r n)
    | _ => none
  else none

/-- One line of text as the host's events; a blank line or a comment alone is no event. -/
def assembleLine (line : String) : Option (List Event) :=
  let text := trimBlanks (line.toList.takeWhile (fun c => !(c == ';')))
  let mnemonic := text.takeWhile (fun c => !isBlank c)
  match text with
  | [] => some []
  | _ =>
      match parseOperands (text.drop mnemonic.length) with
      | some operands => assembleCommand (String.ofList mnemonic) operands
      | none => none

end Sys2Proof.Machine
end

