-- ==== Sys2Proof/Machine/BusMap.lean ====
section
/-! DEFINITION. The bus register space as the block's commands name it (rules R30 to R32, R58): the
classes of module address, the register map "subset the core depends on", and the values with a
meaning on the wire. The block treats none of them specially (rules R31, R58); what a location holds
is the environment's (rule R30). -/

namespace Sys2Proof.Machine

/-- The classes of module address (rule R31). -/
inductive AddressClass where
  | unaddressed
  | module
  | broadcast
  deriving DecidableEq, Repr

/-- The class of a 6-bit module address (rule R31). -/
def addressClass (a : BitVec 6) : AddressClass :=
  if a.toNat = Config.addrUnaddressed then .unaddressed
  else if a.toNat = Config.addrBroadcast then .broadcast
  else .module

/-- The module registers the document names (rule R32). -/
inductive ModuleRegister where
  | deviceStatus
  | voltageBlock
  | alertStatus
  | faultStatus
  | covFault
  | cuvFault
  | adcControl
  | ioControl
  | balanceControl
  | balanceDuration
  | adcTrigger
  | addressControl
  | reset
  deriving DecidableEq, Repr

/-- The register numbers of rule R32. -/
def registerNumber : ModuleRegister → Byte
  | .deviceStatus => 0x00
  | .voltageBlock => 0x01
  | .alertStatus => 0x20
  | .faultStatus => 0x21
  | .covFault => 0x22
  | .cuvFault => 0x23
  | .adcControl => 0x30
  | .ioControl => 0x31
  | .balanceControl => 0x32
  | .balanceDuration => 0x33
  | .adcTrigger => 0x34
  | .addressControl => 0x3B
  | .reset => 0x3C

/-- The value byte of an address assignment: "assigned address `| 0x80`" (rule R58). -/
def assignmentValue (slot : BitVec 6) : Byte := 0x80#8 ||| slot.setWidth 8

/-- The value byte of a write to balance control: the mask in bits 5:0 (rule R58). -/
def balanceValue (mask : BitVec 6) : Byte := mask.setWidth 8

end Sys2Proof.Machine
end

