-- ==== Sys2Proof/Machine/Run.lean ====
section
/-! DEFINITION. Runs of several steps, and the host that chooses its next command by the outcome of the
last (rules R150, R156): it presents one command, waits for `DONE`, reads `CODE` and the collected
bytes, and only then goes on. What the environment delivers to each command is given from outside (rule
R99). -/

namespace Sys2Proof.Machine

/-- `k` steps of the machine, stopping at the first fault or refusal. -/
def runSteps : Nat → State → Result
  | 0, s => .next s
  | k + 1, s =>
      match step s with
      | .next t => runSteps k t
      | .fault r => .fault r
      | .refused r => .refused r

/-- What the host reads when a command has ended (rule R150): `CODE`, and the collected bytes, which have
a meaning only when `RX_VALID = 1`. -/
structure HostResult where
  code : Code
  rx : List Byte
  deriving DecidableEq, Repr

/-- The host's reading of `CODE` and of `RXBUF[0..RXLEN]` (rules R15, R150). -/
def State.hostResult (s : State) : HostResult where
  code := s.code
  rx := if s.rxValid then s.rxBuf else []

/-- The host issues a command to the idle block and the block works until `DONE = 1`, with `delivered`
arriving after the frame and before the block looks. The number of steps is that of the longest such
transaction; the block waits in IDLE through what is left of them (rules R90, R130). -/
def issue (i : Instr) (delivered : List Byte) (s : State) : Result :=
  runSteps (s.rxFifo.length + delivered.length + 6)
    (s.withSchedule (presentEvents i ++ [.block, .deliver delivered]))

/-- A host at work: `command` says what it issues next, `next` where it stands after the result. One
list of `deliveries` for each command; the run ends with them, or when the host issues nothing more, or
at a stop of the machine. -/
def drive {host : Type} (command : host → Option Instr) (next : host → HostResult → host) :
    List (List Byte) → host → State → host × Result
  | [], h, s => (h, .next s)
  | delivered :: deliveries, h, s =>
      match command h with
      | none => (h, .next s)
      | some i =>
          match issue i delivered s with
          | .next t => drive command next deliveries (next h t.hostResult) t
          | .fault r => (h, .fault r)
          | .refused r => (h, .refused r)

end Sys2Proof.Machine
end

