-- ==== Sys2Proof/Machine/HostSequences.lean ====
section
/-! DEFINITION. The host's command sequences of 43_host_sequences.md, rules R151 to R155: surrounding
software (rule R3), recorded as machines of the host (which command comes next, and where a command's
result leads) that `drive` runs on the block, and as what the host reads from the collected bytes.
"Nothing in this file is behaviour of the block." Literals without a source are opaque (D26). -/

namespace Sys2Proof.Machine

/-- A register number as an operand. -/
def regOperand (r : ModuleRegister) : Nat := (registerNumber r).toNat

/-- The module address and register a command goes to. -/
def commandTarget : Instr → Option (Nat × Nat)
  | .rd a r _ => some (a, r)
  | .rdnc a r _ => some (a, r)
  | .wr a r _ => some (a, r)
  | .crcInit => none
  | .crcByte _ => none
  | .enc _ _ _ _ => none
  | .dec _ => none
  | .frameRdReq _ _ _ => none
  | .frameWrReq _ _ _ _ => none
  | .frameRsp _ _ _ _ _ => none

/-! ## A sequence that stops at the first fault (rule R151) -/

/-- Where a sequence of the Module Driver stands. -/
inductive Sequence where
  /-- `command` is issued next, then `rest`; `responses` are the collected bytes so far, oldest first. -/
  | running (command : Instr) (rest : List Instr) (responses : List (List Byte))
  /-- Every command ended `OK`; the collected bytes of each. -/
  | succeeded (responses : List (List Byte))
  /-- `command` ended with this `CODE`, which is not `OK`; nothing after it is issued. -/
  | failed (command : Instr) (code : Code)
  deriving DecidableEq, Repr

/-- What is left to issue after the responses so far. -/
def Sequence.proceed : List Instr → List (List Byte) → Sequence
  | [], responses => .succeeded responses
  | i :: rest, responses => .running i rest responses

/-- The sequence of these commands, at its head. -/
def Sequence.start (commands : List Instr) : Sequence := .proceed commands []

/-- The command the host issues there. -/
def Sequence.command : Sequence → Option Instr
  | .running i _ _ => some i
  | .succeeded _ => none
  | .failed _ _ => none

/-- "the sequence stops at the first command whose `CODE` is not `OK`" (rule R151). -/
def Sequence.next (q : Sequence) (r : HostResult) : Sequence :=
  match q with
  | .running i rest responses =>
      if r.code = .ok then .proceed rest (responses ++ [r.rx]) else .failed i r.code
  | .succeeded responses => .succeeded responses
  | .failed i c => .failed i c

/-! ## Module Driver (rule R151) -/

/-- The commands of `readStatus(m)`. -/
def readStatusCommands (m : Nat) : List Instr := [.rd m (regOperand .alertStatus) 4]

/-- The commands of `readVoltageAndTemperature(m)`. -/
def readVoltageAndTemperatureCommands (m : Nat) : List Instr :=
  readStatusCommands m ++
    [.wr m (regOperand .adcControl) Config.adcCtrlValue.toNat,
     .wr m (regOperand .ioControl) Config.ioCtrlValue.toNat,
     .wr m (regOperand .adcTrigger) Config.adcTriggerValue.toNat,
     .rd m (regOperand .voltageBlock) 18]

/-- `readStatus(m)`. -/
def readStatus (m : Nat) : Sequence := .start (readStatusCommands m)

/-- `readVoltageAndTemperature(m)`. -/
def readVoltageAndTemperature (m : Nat) : Sequence := .start (readVoltageAndTemperatureCommands m)

/-- What `readStatus` reads on `OK`: alert, fault, COV, CUV. None for a response that has no payload
byte there (rules R42, R85; log 28). -/
def statusFlags (rx : List Byte) : Option (Byte × Byte × Byte × Byte) :=
  match rx[3]?, rx[4]?, rx[5]?, rx[6]? with
  | some alert, some fault, some cov, some cuv => some (alert, fault, cov, cuv)
  | _, _, _, _ => none

/-- `u16(k)` of the collected bytes. -/
def payloadWord (rx : List Byte) (k : Nat) : Option (BitVec 16) := be16 (rx.drop Config.echoLen) k

/-- The raw module voltage, `u16(0)`. -/
def rawModuleVoltage (rx : List Byte) : Option (BitVec 16) := payloadWord rx 0
/-- The raw voltage of cell `i`, 1 to 6, `u16(2*i)`. -/
def rawCellVoltage (rx : List Byte) (i : Nat) : Option (BitVec 16) := payloadWord rx (2 * i)
/-- The raw temperature of sensor 1, `u16(14)`. -/
def rawTemperature1 (rx : List Byte) : Option (BitVec 16) := payloadWord rx 14
/-- The raw temperature of sensor 2, `u16(16)`. -/
def rawTemperature2 (rx : List Byte) : Option (BitVec 16) := payloadWord rx 16

/-! ## Discovery (rule R152) -/

/-- The bytes of `RESET_ACK`. -/
def resetAckBytes : List Byte := bytesHighFirst 4 Config.resetAck.toNat
/-- The bytes of `DISCOVERY_SIGNATURE`. -/
def signatureBytes : List Byte := bytesHighFirst 3 Config.discoverySignature.toNat

/-- Where the host's discovery stands. -/
inductive Discovery where
  /-- Step 1, after this many failed attempts. -/
  | resetting (attempts : Nat)
  /-- Step 2, the probe for this slot. -/
  | probing (slot : Nat)
  /-- Step 2, the address assignment of this slot, after this many failed attempts. -/
  | assigning (slot attempts : Nat)
  /-- Finished with this many modules addressed. -/
  | finished (modules : Nat)
  /-- Discovery-Timeout (rules R141, R155). -/
  | timeout
  deriving DecidableEq, Repr

/-- The command the host issues there. -/
def discoveryCommand : Discovery → Option Instr
  | .resetting _ => some (bcast (regOperand .reset) Config.resetValue.toNat)
  | .probing _ => some (probe Config.probeRegister.toNat Config.probeCount.toNat)
  | .assigning slot _ =>
      some (.wr Config.addrUnaddressed (regOperand .addressControl)
        (assignmentValue (BitVec.ofNat 6 slot)).toNat)
  | .finished _ => none
  | .timeout => none

/-- A failed attempt: one more, or Discovery-Timeout at `MAX_ATTEMPTS`. -/
def failedAttempt (attempts : Nat) (again : Nat → Discovery) : Discovery :=
  if attempts + 1 = Config.maxAttempts then .timeout else again (attempts + 1)

/-- Where discovery goes on with the collected bytes `rx`. -/
def discoveryNext (d : Discovery) (rx : List Byte) : Discovery :=
  match d with
  | .resetting attempts =>
      if rx = resetAckBytes then .probing Config.addrFirst else failedAttempt attempts .resetting
  | .probing slot =>
      if rx.length < Config.echoLen ∨ rx.take Config.echoLen ≠ signatureBytes then .finished (slot - 1)
      else .assigning slot 0
  | .assigning slot attempts =>
      if rx.take Config.echoLen =
          [Config.assignAckAddress, Config.assignAckCommand, assignmentValue (BitVec.ofNat 6 slot)] then
        (if slot = Config.addrLast then .finished slot else .probing (slot + 1))
      else failedAttempt attempts (.assigning slot)
  | .finished modules => .finished modules
  | .timeout => .timeout

/-! ## The conditions the host raises (rule R155) -/

/-- "Conditions the host raises, not the block": none has a code in `STATUS` (rules R116, R155). -/
inductive HostCondition where
  /-- (a) The transport cannot be opened; fatal at startup. -/
  | transportUnavailable
  /-- (c) No acknowledgment within the bounded attempts; fatal for that discovery run. -/
  | discoveryTimeout
  /-- (d) A module's command ended with this `CODE`, not `OK`: "reported with the offending module
  address and register" (rule R116). -/
  | moduleReadFailure (address register : Nat) (code : Code)
  deriving DecidableEq, Repr

/-- (a): the machine's stop as the host names it. -/
def conditionOfFault : Fault → HostCondition
  | .transportUnavailable => .transportUnavailable

/-- (c): discovery that ran out of attempts. -/
def Discovery.condition : Discovery → Option HostCondition
  | .resetting _ => none
  | .probing _ => none
  | .assigning _ _ => none
  | .finished _ => none
  | .timeout => some .discoveryTimeout

/-- (d): a module's sequence that stopped. -/
def Sequence.condition : Sequence → Option HostCondition
  | .running _ _ _ => none
  | .succeeded _ => none
  | .failed i c =>
      (commandTarget i).map (fun target => .moduleReadFailure target.1 target.2 c)

/-! ## The poll cycle (rule R153) -/

/-- The broadcast that stops balancing, at the head of a poll cycle (rule R153). -/
def stopBalancing : Instr := bcast (regOperand .balanceControl) 0

/-- Where a poll cycle stands. `results` has, for each module read so far, its address and where its
sequence ended: "result success or failure per module". -/
inductive Poll where
  /-- The broadcast is issued next; these modules are to be read. -/
  | broadcasting (modules : List Nat)
  /-- The module at address `m` is being read, at `q` of its sequence; `rest` come after it. -/
  | reading (m : Nat) (q : Sequence) (rest : List Nat) (results : List (Nat × Sequence))
  /-- The cycle is over. -/
  | finished (results : List (Nat × Sequence))
  deriving DecidableEq, Repr

/-- Read the next module, if one is left. -/
def Poll.proceed : List Nat → List (Nat × Sequence) → Poll
  | [], results => .finished results
  | m :: rest, results => .reading m (readVoltageAndTemperature m) rest results

/-- The command the host issues there. -/
def Poll.command : Poll → Option Instr
  | .broadcasting _ => some stopBalancing
  | .reading _ q _ _ => q.command
  | .finished _ => none

/-- Where the cycle goes on: a module whose sequence has ended, in success or in failure, is followed by
the next module ("module-level isolation is a required addition"). The broadcast's own outcome is not
judged: log 28. -/
def Poll.next (p : Poll) (r : HostResult) : Poll :=
  match p with
  | .broadcasting modules => .proceed modules []
  | .reading m q rest results =>
      if ((q.next r).command).isSome then .reading m (q.next r) rest results
      else .proceed rest (results ++ [(m, q.next r)])
  | .finished results => .finished results

/-- The Module-Read-Failures of a cycle's results (rules R116, R155). -/
def pollFailures (results : List (Nat × Sequence)) : List HostCondition :=
  results.filterMap (fun result => result.2.condition)

/-- The sequence of a module that succeeded. -/
def Sequence.isSuccess : Sequence → Bool
  | .running _ _ _ => false
  | .succeeded _ => true
  | .failed _ _ => false

/-- Whether the latest read of the module at this address succeeded. -/
def readSucceeded (results : List (Nat × Sequence)) (m : Nat) : Bool :=
  match results.lookup m with
  | none => false
  | some q => q.isSuccess

/-! ## Balancing (rule R154) -/

/-- Balancing one module: the duration before the mask, nothing for an empty mask. -/
def balanceCommands (m : Nat) (mask : BitVec 6) : List Instr :=
  if mask = 0 then []
  else [.wr m (regOperand .balanceDuration) Config.balanceDurationValue.toNat,
        .wr m (regOperand .balanceControl) (balanceValue mask).toNat]

/-- The addresses a module can have, in order (rules R4, R31). -/
def moduleAddresses : List Nat := List.range' Config.addrFirst (Config.addrLast + 1 - Config.addrFirst)

/-- The modules that get balancing commands, "in address order": the latest read succeeded
("balancing is simply skipped for modules that failed their latest read") and the mask is not empty. -/
def balancedModules (results : List (Nat × Sequence)) (mask : Nat → BitVec 6) : List Nat :=
  moduleAddresses.filter (fun m => readSucceeded results m && !decide (mask m = 0))

/-- The poll for observability: the last module that was touched, `iterations` times. -/
def balancePollCommands (touched : List Nat) (iterations : Nat) : List Instr :=
  match touched.getLast? with
  | none => []
  | some m => List.replicate iterations (.rd m (regOperand .balanceControl) 1)

/-- Balancing after a poll cycle: the commands of each module in address order, and then the optional
poll (`iterations` 0 leaves it out). Each command is issued whatever the outcome of the one before: log
28. -/
def balancingCommands (results : List (Nat × Sequence)) (mask : Nat → BitVec 6) (iterations : Nat) :
    List Instr :=
  (balancedModules results mask).flatMap (fun m => balanceCommands m (mask m)) ++
    balancePollCommands (balancedModules results mask) iterations

/-! ## The host's machines on the block (rules R150, R156) -/

/-- A sequence of the Module Driver. -/
def driveSequence : List (List Byte) → Sequence → State → Sequence × Result :=
  drive Sequence.command Sequence.next

/-- Discovery. -/
def driveDiscovery : List (List Byte) → Discovery → State → Discovery × Result :=
  drive discoveryCommand (fun d r => discoveryNext d r.rx)

/-- A poll cycle. -/
def drivePoll : List (List Byte) → Poll → State → Poll × Result := drive Poll.command Poll.next

/-- A list of commands that are issued one after the other. -/
def driveCommands : List (List Byte) → List Instr → State → List Instr × Result :=
  drive List.head? (fun commands _ => commands.tail)

end Sys2Proof.Machine
end

