-- ==== Sys2Proof/Machine/BigStep.lean ====
section
/-! DEFINITION. A whole transaction in one rule (rule R90), written from that rule and not from the
phases. The obligations say that the phases reach what it says. -/

namespace Sys2Proof.Machine

/-- `len(rx)` exceeds `RX_CAP` (rule R90); never when `RX_CAP` is unbounded (rule R5). -/
def exceedsRxCap (n : Nat) : Bool :=
  match Config.rxCap with
  | none => false
  | some cap => decide (cap < n)

/-- The bytes that are left in `RXFIFO` when `rx` was pending: none, or after `RX_OVERFLOW` those that
found no room (rule R115). -/
def leftAfterCollect (rx : List Byte) : List Byte :=
  match Config.rxCap with
  | none => []
  | some cap => rx.drop cap

/-- The outcome of a sent transaction, in rule R90's order. -/
def bigStepCode (op : TransOp) (rx : List Byte) : Code :=
  if exceedsRxCap rx.length then .rxOverflow
  else if op = .rdnc then .ok
  else if rx.length = 0 then .noResponse
  else if crcOk rx then .ok
  else .crcMismatch

/-- `CRC_RX` and `CRC_CALC` after a sent transaction: both values of the check where RD or WR judged at
least one byte, else the 0x00 of acceptance (rules R90, R119, R97). -/
def bigStepCrcPair (op : TransOp) (rx : List Byte) : Byte × Byte :=
  if exceedsRxCap rx.length then (0x00, 0x00)
  else if op = .rdnc then (0x00, 0x00)
  else match crcPair rx with
    | none => (0x00, 0x00)
    | some pair => pair

/-- The state after a transaction that sent the frame `f` and found `rx` pending (rule R90). -/
def bigStepSent (op : TransOp) (f rx : List Byte) (s : State) : State :=
  { s with
      txBuf := f, opLatch := .transaction op, phase := .idle, done := true,
      lineTx := s.lineTx ++ f, rxFifo := leftAfterCollect rx,
      code := bigStepCode op rx,
      rxValid := decide (bigStepCode op rx = .ok),
      rxBuf := if bigStepCode op rx = .ok then rx else [],
      crcRx := (bigStepCrcPair op rx).1, crcCalc := (bigStepCrcPair op rx).2 }

/-- The state after a transaction whose operands were refused: nothing is sent, nothing is collected
(rules R90, R112, R119). -/
def bigStepInvalid (s : State) : State :=
  { s with
      txBuf := [], rxBuf := [], phase := .idle, done := true, rxValid := false,
      code := .invalidArgument, crcRx := 0x00, crcCalc := 0x00 }

/-- Rule R90: the whole of a transaction, with `rx` what is pending when the block looks. -/
def bigStep (op : TransOp) (a r v : Nat) (rx : List Byte) (s : State) : State :=
  match encodeRequest a r v (transWrites op) with
  | none => bigStepInvalid s
  | some f => bigStepSent op f rx s

end Sys2Proof.Machine
end

