-- ==== Sys2Proof/Safety.lean ====
section
/-! DEFINITION. The terms claims use: the invariant of the machine, the end of a run (rule R156), and
the conforming-environment premise (rule R100). -/

namespace Sys2Proof.Machine

/-- The lengths and codes that go with a running transaction (rules R14, R18, R91). -/
structure State.Running (s : State) : Prop where
  /-- The request frame of the latched transaction (rules R14, R50). -/
  frame : ∃ op, s.opLatch = .transaction op ∧ s.txBuf.length = (if transWrites op then 4 else 3)
  /-- Acceptance cleared these (rule R91). -/
  notDone : s.done = false
  notValid : s.rxValid = false
  codeOk : s.code = .ok
  crcClear : s.crcRx = 0x00 ∧ s.crcCalc = 0x00
  /-- A transaction runs only over an open transport (rule R132). -/
  transport : s.transportOpen = true
  /-- Nothing is collected before phase RX (rules R91 to R94). -/
  notYetCollected : s.phase = .tx ∨ s.phase = .settle → s.rxBuf = []

/-- What the registers say of each other while no transaction runs (rules R19, R111, R119). -/
structure State.Resting (s : State) : Prop where
  /-- Collected bytes are kept only as the result of a transaction that ended `OK` (rules R15, R119). -/
  withheld : s.rxValid = false → s.rxBuf = []
  /-- A result comes with `DONE` (rule R19). -/
  validDone : s.rxValid = true → s.done = true
  /-- A result comes with equal CRC registers: matched, or both cleared (rules R90, R97). -/
  validCrc : s.rxValid = true → s.crcRx = s.crcCalc
  /-- "they differ" (rule R111). -/
  mismatchDiffers : s.code = .crcMismatch → s.crcRx ≠ s.crcCalc
  /-- A fault of a transaction past acceptance leaves no result (rule R119). -/
  faultNotValid : s.code = .crcMismatch ∨ s.code = .noResponse ∨ s.code = .rxOverflow → s.rxValid = false
  /-- An outcome other than `OK` comes with `DONE` (rule R119). -/
  faultDone : s.code ≠ .ok → s.done = true

/-- The invariant every step keeps. -/
structure State.Inv (s : State) : Prop where
  /-- `TXLEN` is 0, 3 or 4 (rule R14). -/
  txLen : s.txBuf.length = 0 ∨ s.txBuf.length = 3 ∨ s.txBuf.length = 4
  /-- `RXLEN` is in `0..RX_CAP` (rule R15). -/
  rxLen : ∀ cap, Config.rxCap = some cap → s.rxBuf.length ≤ cap
  running : s.phase ≠ .idle → s.Running
  resting : s.phase = .idle → s.Resting

/-- A run of the host's list of commands is over: no command of the list is left to be issued, and the
last one has `DONE = 1` with `PHASE = IDLE` (rule R156). What else is scheduled does not matter: late
deliveries, an environment that never stops, reads of the host. -/
def State.runOver (s : State) : Prop :=
  (∀ e ∈ s.schedule, presentsCommand e = false) ∧ s.done = true ∧ s.phase = .idle

/-- The response a conforming environment gives to the frame `f` (rule R100): the echo is the first
three bytes of `f`, then the payload, then their checksum; the payload has the `n` bytes a read asked
for, and none for a write. -/
def Conforming (op : TransOp) (v : Nat) (f payload resp : List Byte) : Prop :=
  resp = conformingResponse (f.take Config.echoLen) payload ∧
    payload.length = (if transWrites op then 0 else v)

/-- The bytes that the `deliver` events of a list bring, in order (rule R23). -/
def deliveredBytes : List Event → List Byte
  | [] => []
  | .block :: es => deliveredBytes es
  | .hostWrite _ _ :: es => deliveredBytes es
  | .hostRead _ :: es => deliveredBytes es
  | .hostWait :: es => deliveredBytes es
  | .deliver bytes :: es => bytes ++ deliveredBytes es
  | .deliverForever _ :: es => deliveredBytes es
  | .reset _ :: es => deliveredBytes es
  | .openTransport _ :: es => deliveredBytes es

/-- The schedule of a transaction under rule R100's premise: the command is presented, the frame sent,
and everything delivered before the block leaves `SETTLE`. -/
def transactionSchedule (c : Word) (ds : List (List Byte)) : List Event :=
  .hostWrite 0x00 c :: .block :: ds.map .deliver

end Sys2Proof.Machine
end

