-- ==== Sys2Proof/Certificates/Slice0/Obligations.lean ====
section
/-! DEFINITION. The statements for the provers. Each docstring names the rule of spec/ it formalises. -/

open Sys2Proof Sys2Proof.Machine

/-! ## Reset and the registers -/

/-- Rule R27: every register after reset, `STATUS = 0x00`, and `LINE_TX` empty. -/
def Obligations.ResetRegisterValues : Prop :=
  State.reset.crcAcc = 0x00 ∧ State.reset.txLen = 0 ∧ State.reset.rxLen = 0 ∧
  State.reset.decAddr = 0 ∧ State.reset.decWr = false ∧ State.reset.decBlk = false ∧
  State.reset.phase = .idle ∧ latchNumber State.reset.opLatch = 0 ∧
  State.reset.status = 0x00 ∧ State.reset.busy = false ∧ State.reset.done = false ∧
  State.reset.rxValid = false ∧ State.reset.code = .ok ∧
  State.reset.crcRx = 0x00 ∧ State.reset.crcCalc = 0x00 ∧ State.reset.lineTx = []

/-- The invariant of Sys2Proof/Safety.lean holds after reset. -/
def Obligations.ResetSatisfiesInvariant : Prop := State.reset.Inv

/-- Every step keeps the invariant, from every state that has it (rules R14, R15, R18, R19, R91, R111,
R119). -/
def Obligations.InvariantKeptByEveryStep : Prop :=
  ∀ s t : State, s.Inv → step s = .next t → t.Inv

/-- The reset input in any state (rules R130, R131): the registers take their reset values, `RXFIFO`
and the transport stay, nothing is added to `LINE_TX` but a beginning of the frame when reset falls
into phase TX. That the length of this beginning is an operand of the event is the model's choice
(log 8). -/
def Obligations.ResetInputRestoresRegisters : Prop :=
  ∀ (s : State) (sent : Nat) (rest : List Event), s.schedule = .reset sent :: rest →
    step s = .next
      { State.reset with
          rxFifo := s.rxFifo,
          lineTx := s.lineTx ++ (if s.phase = .tx then s.txBuf.take sent else []),
          transportOpen := s.transportOpen, schedule := rest, hostData := s.hostData }

/-- The layout of `STATUS` (rule R19) with the numbers of rule R110. -/
def Obligations.StatusWordLayout : Prop :=
  ∀ s : State,
    s.status.getLsbD 0 = !decide (s.phase = .idle) ∧
    s.status.getLsbD 1 = s.done ∧
    s.status.getLsbD 2 = s.rxValid ∧
    s.status.getLsbD 3 = false ∧
    s.status.extractLsb' 4 3 = codeNumber s.code ∧
    s.status.getLsbD 7 = false ∧
    codeNumber .ok = 0 ∧ codeNumber .crcMismatch = 1 ∧ codeNumber .invalidArgument = 2 ∧
    codeNumber .noResponse = 3 ∧ codeNumber .illegalCommand = 4 ∧ codeNumber .rxOverflow = 5

/-- The numbers of `PHASE` (rule R17) and of `OP_LATCH` (rule R18). -/
def Obligations.PhaseAndLatchNumbers : Prop :=
  phaseNumber .idle = 0 ∧ phaseNumber .tx = 1 ∧ phaseNumber .settle = 2 ∧ phaseNumber .rx = 3 ∧
  phaseNumber .check = 4 ∧ (∀ p : Phase, (phaseNumber p).toNat < 5) ∧
  latchNumber .zero = 0 ∧ latchNumber (.transaction .rd) = 4 ∧
  latchNumber (.transaction .rdnc) = 5 ∧ latchNumber (.transaction .wr) = 6

/-- Rule R21: what a read of each host register returns, that a read has no side effect, and that a
write to a read-only register is ignored. -/
def Obligations.HostRegisterPort : Prop :=
  ∀ (s : State) (rest : List Event),
    (s.readRegister 0x00 = some 0 ∧ s.readRegister 0x01 = some s.status.toNat ∧
      s.readRegister 0x02 = some s.crcAcc.toNat ∧ s.readRegister 0x03 = some s.crcRx.toNat ∧
      s.readRegister 0x04 = some s.crcCalc.toNat ∧ s.readRegister 0x05 = some s.txBuf.length ∧
      s.readRegister 0x06 = some s.rxBuf.length ∧
      s.readRegister 0x07 = some
        ((if s.decBlk then 128 else 0) + 2 * s.decAddr.toNat + (if s.decWr then 1 else 0)) ∧
      s.readRegister 0x08 = some (phaseNumber s.phase).toNat) ∧
    (∀ (i : Nat) (b : Byte), i < 4 → s.txBuf[i]? = some b → s.readRegister (0x10 + i) = some b.toNat) ∧
    (∀ (i : Nat) (b : Byte), s.rxValid = true → s.rxBuf[i]? = some b →
      (∀ cap, Config.rxCap = some cap → i < cap) → s.readRegister (0x1000 + i) = some b.toNat) ∧
    (∀ i cap, Config.rxCap = some cap → cap ≤ i → s.readRegister (0x1000 + i) = some 0) ∧
    (∀ n, 0x08 < n → n < 0x10 → s.readRegister n = some 0) ∧
    (∀ n, 0x13 < n → n < 0x1000 → s.readRegister n = some 0) ∧
    (∀ n v, s.schedule = .hostRead n :: rest → s.readRegister n = some v →
      step s = .next { s with schedule := rest, hostData := v }) ∧
    (∀ n w, s.schedule = .hostWrite n w :: rest →
      ((0x01 ≤ n ∧ n ≤ 0x08) ∨ (0x10 ≤ n ∧ n ≤ 0x13) ∨
        ∃ i, n = 0x1000 + i ∧ ∀ cap, Config.rxCap = some cap → i < cap) →
      step s = .next { s with schedule := rest })

/-- A buffer byte past the length, or an `RXBUF` byte while `RX_VALID = 0`, has no meaning to the host:
the read is refused by name (U3, rules R14, R15; log 12). -/
def Obligations.UnreadableBufferByteRefused : Prop :=
  ∀ (s : State) (i : Nat) (rest : List Event),
    (i < 4 → s.txBuf.length ≤ i → s.schedule = .hostRead (0x10 + i) :: rest →
      step s = .refused .readWithoutMeaning) ∧
    ((∀ cap, Config.rxCap = some cap → i < cap) → s.rxValid = false ∨ s.rxBuf.length ≤ i →
      s.schedule = .hostRead (0x1000 + i) :: rest → step s = .refused .readWithoutMeaning)

/-! ## The CRC generator -/

/-- The bit-by-bit `crc_byte` of rule R70 is the tabled one for all 65536 pairs (rules R75, R77;
95_test_vectors.md section 2.3). -/
def Obligations.CrcByteEqualsTable : Prop :=
  ∀ acc b : Byte, crcByteByTable acc b = some (crcByte acc b)

/-- Rule R75 law 2: the checksum of a sequence followed by its checksum is zero (conflict C1). -/
def Obligations.ChecksumSelfCheckIsZero : Prop :=
  ∀ s : List Byte, checksum (s ++ [checksum s]) = 0x00

/-- Rule R75 law 4: linearity over XOR. -/
def Obligations.ChecksumIsLinear : Prop :=
  (∀ s t : List Byte, s.length = t.length →
    checksum (List.zipWith (· ^^^ ·) s t) = checksum s ^^^ checksum t) ∧
  ∀ acc b : Byte, crcByte acc b = crcByte 0x00 (acc ^^^ b)

/-- Rule R75 law 6: flipping one bit of a sequence changes its checksum. -/
def Obligations.SingleBitErrorIsCaught : Prop :=
  ∀ (s t : List Byte) (b : Byte) (k : Fin 8),
    checksum (s ++ (b ^^^ (1#8 <<< k.val)) :: t) ≠ checksum (s ++ b :: t)

/-- Rule R75 law 3 and rule R138 (1) to (3): zero bytes at the head do not show, and every sequence of
zero bytes passes the CRC test. -/
def Obligations.LeadingZerosAreInvisible : Prop :=
  (∀ (n : Nat) (s : List Byte), checksum (List.replicate n 0x00 ++ s) = checksum s) ∧
  (∀ (n : Nat) (s : List Byte), s ≠ [] → crcOk (List.replicate n 0x00 ++ s) = crcOk s) ∧
  ∀ n : Nat, crcOk (List.replicate (n + 1) 0x00) = true

/-- Rule R84, corner case: a sequence passes exactly when its own checksum is zero. -/
def Obligations.CrcOkExactlyWhenChecksumZero : Prop :=
  ∀ s : List Byte, s ≠ [] → (crcOk s = true ↔ checksum s = 0x00)

/-- Rule R72: `CRC.INIT` in full, its word, and the illegal words of its opcode. -/
def Obligations.CrcInitResult : Prop :=
  encode .crcInit = .command 0x00000000 ∧
  (∀ c : Word, opField c = 0 → c ≠ 0 → decodeCommand c = .error (.mustBeZero 0)) ∧
  ∀ s : State,
    (s.phase = .idle →
      exec .crcInit s = .next { s with crcAcc := 0x00, done := true, code := .ok }) ∧
    (s.phase ≠ .idle → exec .crcInit s = .refused .commandWhileBusy)

/-- Rule R73: `CRC.BYTE b` in full, its word, its corner cases and its example. -/
def Obligations.CrcByteResult : Prop :=
  (∀ b : Byte, encode (.crcByte b) = .command (0x10000000#32 ||| b.zeroExtend 32)) ∧
  (∀ (b : Byte) (s : State),
    (s.phase = .idle →
      exec (.crcByte b) s = .next { s with crcAcc := crcByte s.crcAcc b, done := true, code := .ok }) ∧
    (s.phase ≠ .idle → exec (.crcByte b) s = .refused .commandWhileBusy)) ∧
  crcByte 0x00 0x00 = 0x00 ∧ (∀ b : Byte, crcByte b b = 0x00) ∧ crcByte 0x00 0x01 = 0x07 ∧
  [1, 2, 3, 4, 5, 6, 7, 8].map (fun k => crcShifts k 0x01) =
    [0x02, 0x04, 0x08, 0x10, 0x20, 0x40, 0x80, 0x07]

/-- Rule R74: after `CRC.INIT` and any events without another `CRC.INIT` or a reset, `CRC_ACC` is the
checksum of the bytes the `CRC.BYTE` commands brought, whatever other commands, transactions, reads
and deliveries come in between. Rule R74 marks this as the spec's own inference ("[derived: from rule
R71, rule R72 and rule R73]"). -/
def Obligations.StreamingChecksumOfARun : Prop :=
  ∀ (k : Nat) (s t : State) (es : List Event),
    (∀ e ∈ es, restartsCrc e = false) → s.schedule = .hostWrite 0x00 0x00000000 :: es →
    runSteps k s = .next t → t.schedule = [] → 0 < k → t.crcAcc = checksum (crcBytesOfEvents es)

/-- Rules R61, R74: the pseudo-instruction `CHECKSUM` runs to its end in an idle block, and changes
nothing but `CRC_ACC`, `DONE` and `CODE`. -/
def Obligations.ChecksumProgramCompletes : Prop :=
  ∀ (s : State) (bytes : List Byte) (rest : List Event), s.phase = .idle →
    s.schedule = (checksumProgram bytes).flatMap presentEvents ++ rest →
    runSteps (bytes.length + 1) s = .next
      { s with schedule := rest, crcAcc := checksum bytes, done := true, code := .ok }

/-- Rule R13: `CRC_ACC` is written by `CRC.INIT`, `CRC.BYTE` and reset, "and by nothing else". -/
def Obligations.CrcAccWrittenOnlyByItsCommands : Prop :=
  ∀ s t : State, step s = .next t → t.crcAcc ≠ s.crcAcc →
    (∃ rest, s.schedule = .hostWrite 0x00 0x00000000 :: rest ∧ t.crcAcc = 0x00) ∨
    (∃ c rest, s.schedule = .hostWrite 0x00 c :: rest ∧ rowCrcByte.selects c = true ∧
      t.crcAcc = crcByte s.crcAcc (vField c)) ∨
    (∃ sent rest, s.schedule = .reset sent :: rest ∧ t.crcAcc = 0x00)

/-! ## The frame codec -/

/-- Rule R80: `encode_request` fails exactly on an operand out of range and else gives the three bytes,
with their checksum appended exactly when `w = 1`. -/
def Obligations.EncodeRequestResult : Prop :=
  ∀ (a r v : Nat) (w : Bool),
    (encodeRequest a r v w = none ↔ a > 63 ∨ r > 255 ∨ v > 255) ∧
    (¬(a > 63 ∨ r > 255 ∨ v > 255) →
      encodeRequest a r v w =
        (let b0 := BitVec.ofNat 8 (2 * a + (if w then 1 else 0))
         let f := [b0, BitVec.ofNat 8 r, BitVec.ofNat 8 v]
         some (if w then f ++ [checksum f] else f)))

/-- Rule R82: the three fields of an address byte, the round trip for every address and write bit, and
that the fields put together are the byte. The rule marks the last clause as the spec's own inference
("[derived: the three fields cover bits 7, 6:1 and 0 without overlap]"). -/
def Obligations.AddressByteRoundTrip : Prop :=
  (∀ b : Byte, decodeAddr b =
    (b.getLsbD 7, BitVec.ofNat 6 (b.toNat / 2), b.getLsbD 0)) ∧
  (∀ (a : Nat) (w : Bool), a ≤ 63 → decodeAddr (addressByte a w) = (false, BitVec.ofNat 6 a, w)) ∧
  ∀ b : Byte, joinAddr (blkField b) (addrField b) (wrField b) = b

/-- Rule R81: `ENC a, r, v, w` in full, for every operand the rule is written for, with its corner cases
and examples. -/
def Obligations.EncResult : Prop :=
  (∀ (a r v : Nat) (w : Bool), a ≤ 255 → r ≤ 255 → v ≤ 255 →
    encode (.enc a r v w) = .command
      (0x20000000#32 ||| ((if w then 1#32 else 0#32) <<< 24) ||| (BitVec.ofNat 32 a <<< 16) |||
        (BitVec.ofNat 32 r <<< 8) ||| BitVec.ofNat 32 v)) ∧
  (∀ (a r v : Nat) (w : Bool) (s : State),
    (s.phase = .idle → (a > 63 ∨ r > 255 ∨ v > 255) →
      exec (.enc a r v w) s = .next { s with txBuf := [], code := .invalidArgument, done := true }) ∧
    (s.phase = .idle → a ≤ 63 → r ≤ 255 → v ≤ 255 →
      ∃ f, encodeRequest a r v w = some f ∧ f.length = (if w then 4 else 3) ∧
        exec (.enc a r v w) s = .next { s with txBuf := f, code := .ok, done := true }) ∧
    (s.phase ≠ .idle → exec (.enc a r v w) s = .refused .commandWhileBusy)) ∧
  encodeRequest 63 0x32 0 true = some [0x7F, 0x32, 0x00, 0xF3] ∧
  encodeRequest 1 0x01 4 false = some [0x02, 0x01, 0x04]

/-- Rule R83: `DEC b` in full. -/
def Obligations.DecResult : Prop :=
  (∀ b : Byte, encode (.dec b) = .command (0x30000000#32 ||| b.zeroExtend 32)) ∧
  ∀ (b : Byte) (s : State),
    (s.phase = .idle →
      exec (.dec b) s = .next
        { s with decBlk := b.getLsbD 7, decAddr := BitVec.ofNat 6 (b.toNat / 2), decWr := b.getLsbD 0,
                 code := .ok, done := true }) ∧
    (s.phase ≠ .idle → exec (.dec b) s = .refused .commandWhileBusy)

/-- Rules R42, R52, R85: a conforming response is cut into its echo, payload and CRC, its payload bytes
stand at indices 3 and up, and it passes the CRC test; below four bytes there are no fields. -/
def Obligations.ConformingResponseParses : Prop :=
  (∀ echo payload : List Byte, echo.length = 3 →
    parseResponse (conformingResponse echo payload) =
      some { echo := echo, payload := payload, crc := checksum (echo ++ payload) } ∧
    crcOk (conformingResponse echo payload) = true ∧
    ∀ k, payloadByte (conformingResponse echo payload) k = payload[k]?) ∧
  ∀ s : List Byte, s.length < 4 → parseResponse s = none

/-! ## Encodings -/

/-- Decoding the encoding of a well-formed instruction gives it back, for every instruction. -/
def Obligations.DecodeOfEncode : Prop :=
  ∀ i : Instr, i.WellFormed → decode (encode i) = .ok i

/-- Whatever decodes is the encoding of what it decodes to: no two patterns of one kind share an
instruction, and no bit is dropped. -/
def Obligations.EncodeOfDecode : Prop :=
  ∀ (p : Pattern) (i : Instr), decode p = .ok i → encode i = p

/-- Rules R54, R55, R57: the words the decoder refuses, in the fields' terms. -/
def Obligations.IllegalWordsByField : Prop :=
  ∀ c : Word,
    (∃ e, decodeCommand c = .error e) ↔
      (7 ≤ (c.extractLsb' 28 4).toNat ∨ c.extractLsb' 25 3 ≠ 0 ∨
        (c.getLsbD 24 = true ∧ c.extractLsb' 28 4 ≠ 2) ∨
        ((c.extractLsb' 28 4 = 0 ∨ c.extractLsb' 28 4 = 1 ∨ c.extractLsb' 28 4 = 3) ∧
          (c.extractLsb' 16 8 ≠ 0 ∨ c.extractLsb' 8 8 ≠ 0)) ∨
        (c.extractLsb' 28 4 = 0 ∧ c.extractLsb' 0 8 ≠ 0))

/-- Rule R55: no word selects two rows, and the decoder accepts exactly the words that select one. -/
def Obligations.RowsPartitionTheAcceptedWords : Prop :=
  (∀ (c : Word) (x y : Row), x ∈ commandRows → y ∈ commandRows →
    x.selects c = true → y.selects c = true → x = y) ∧
  ∀ c : Word, (∃ i, decodeCommand c = .ok i) ↔ ∃ row ∈ commandRows, row.selects c = true

/-- The words of rule R60's table, and two frames of rule R50 written out bit by bit. -/
def Obligations.SampleWordsDecode : Prop :=
  decodeCommand 0x00000000 = .ok .crcInit ∧
  decodeCommand 0x10000031 = .ok (.crcByte 0x31) ∧
  decodeCommand 0x213F3200 = .ok (.enc 63 0x32 0 true) ∧
  decodeCommand 0x20010104 = .ok (.enc 1 0x01 4 false) ∧
  decodeCommand 0x3000007F = .ok (.dec 0x7F) ∧
  decodeCommand 0x40010104 = .ok (.rd 1 0x01 4) ∧
  decodeCommand 0x50000001 = .ok (.rdnc 0 0 1) ∧
  decodeCommand 0x603F3200 = .ok (.wr 63 0x32 0) ∧
  decodeRequest [0b00000010, 0b00100000, 0b00000100] = .ok (.frameRdReq 1 0x20 4) ∧
  decodeRequest [0b01111111, 0b00110010, 0b00000000, 0b11110011] = .ok (.frameWrReq 63 0x32 0 0xF3)

/-- Rule R60: the examples of the assembler's text. That blanks are ignored and capitals required is
the model's choice (log 23). -/
def Obligations.AssemblerExamples : Prop :=
  assembleLine "CRC.INIT" = some [.hostWrite 0 0x00000000] ∧
  assembleLine "CRC.BYTE 0x31" = some [.hostWrite 0 0x10000031] ∧
  assembleLine "ENC 63, 0x32, 0, 1" = some [.hostWrite 0 0x213F3200] ∧
  assembleLine "ENC 1, 0x01, 4, 0" = some [.hostWrite 0 0x20010104] ∧
  assembleLine "DEC 0x7F" = some [.hostWrite 0 0x3000007F] ∧
  assembleLine "RD 1, 0x01, 4" = some [.hostWrite 0 0x40010104] ∧
  assembleLine "RDNC 0, 0, 1" = some [.hostWrite 0 0x50000001] ∧
  assembleLine "WR 63, 0x32, 0" = some [.hostWrite 0 0x603F3200]

/-- Rules R50, R51, R96, R98: the frame a transaction builds is the wire row of its kind, with the
operands in the row's fields. -/
def Obligations.BuiltFrameIsTheWireRow : Prop :=
  ∀ (a r v : Nat) (w : Bool) (f : List Byte), encodeRequest a r v w = some f →
    ∃ i : Instr, decodeRequest f = .ok i ∧ i.WellFormed ∧
      i = (if w then
            .frameWrReq (BitVec.ofNat 6 a) (BitVec.ofNat 8 r) (BitVec.ofNat 8 v) (checksum (f.take 3))
          else .frameRdReq (BitVec.ofNat 6 a) (BitVec.ofNat 8 r) (BitVec.ofNat 8 v))

/-! ## A step -/

/-- The step runs the decoded instruction: a word at `CMD`, the frame in `TXBUF` in phase TX, a
delivered response. -/
def Obligations.StepRunsDecodedInstruction : Prop :=
  ∀ (s : State) (rest : List Event) (i : Instr),
    (∀ c, s.schedule = .hostWrite 0x00 c :: rest → decodeCommand c = .ok i →
      step s = exec i { s with schedule := rest }) ∧
    (s.schedule = .block :: rest → s.phase = .tx → decodeRequest s.txBuf = .ok i →
      step s = exec i { s with schedule := rest }) ∧
    (s.schedule = [] → s.phase = .tx → decodeRequest s.txBuf = .ok i → step s = exec i s) ∧
    (∀ bytes, s.schedule = .deliver bytes :: rest → decodeResponse bytes = .ok i →
      step s = exec i { s with schedule := rest })

/-- Placing a pattern makes the very next step run its instruction: in the state as it was, but that a
request frame is in `TXBUF` with the block in phase TX. -/
def Obligations.PlacedPatternRunsNext : Prop :=
  ∀ (s : State) (i : Instr),
    (∀ c, decodeCommand c = .ok i → step (s.place (.command c)) = exec i s) ∧
    (∀ bytes, decodeResponse bytes = .ok i → step (s.place (.response bytes)) = exec i s) ∧
    (∀ bytes, decodeRequest bytes = .ok i →
      step (s.place (.request bytes)) =
        exec i { s with txBuf := bytes, phase := .tx, opLatch := latchOfRequest bytes } ∧
      ∃ t, step (s.place (.request bytes)) = .next t ∧ t.lineTx = s.lineTx ++ bytes)

/-- Every word that decodes, numbered as the opcode table numbers it, runs to a next state as the first
instruction after reset: no instruction is refused there. How a word is placed is the model's choice
(logs 3, 18). -/
def Obligations.EveryTableWordRunsFromReset : Prop :=
  ∀ (nbits w : Nat) (i : Instr), decodeTableWord nbits w = some i →
    (∃ t, step (State.reset.withFetchWord nbits w) = .next t) ∧
    decode (patternOf nbits w) = .ok i ∧
    step (State.reset.withFetchWord nbits w) =
      exec i ((State.reset.place (patternOf nbits w)).withSchedule [])

/-- `WAIT` (rule R61): with `DONE = 1` the host goes on with `STATUS` in hand; else the block takes its
step and the wait stays (log 14). -/
def Obligations.HostWaitsForDone : Prop :=
  ∀ (s : State) (rest : List Event), s.schedule = .hostWait :: rest →
    (s.done = true → step s = .next { s with schedule := rest, hostData := s.status.toNat }) ∧
    (s.done = false → step s = blockStep s)

/-! ## Transactions -/

/-- Rule R91: acceptance of RD, RDNC and WR, with the transport open (the named premise of D25); and
while `PHASE` is not `IDLE` no word is taken, legal or not. -/
def Obligations.TransactionAcceptance : Prop :=
  (∀ (op : TransOp) (a r v : Nat) (s : State),
    (s.phase = .idle → s.transportOpen = true → encodeRequest a r v (transWrites op) = none →
      exec (transInstr op a r v) s = .next
        { s with done := true, rxValid := false, code := .invalidArgument, rxBuf := [],
                 crcRx := 0x00, crcCalc := 0x00, txBuf := [], phase := .idle }) ∧
    (∀ f, s.phase = .idle → s.transportOpen = true →
      encodeRequest a r v (transWrites op) = some f →
      exec (transInstr op a r v) s = .next
        { s with done := false, rxValid := false, code := .ok, rxBuf := [], crcRx := 0x00,
                 crcCalc := 0x00, txBuf := f, opLatch := .transaction op, phase := .tx }) ∧
    (s.phase ≠ .idle → exec (transInstr op a r v) s = .refused .commandWhileBusy)) ∧
  ∀ (s : State) (c : Word) (rest : List Event), s.phase ≠ .idle →
    s.schedule = .hostWrite 0x00 c :: rest → step s = .refused .commandWhileBusy

/-- Rule R96: `RD` with a legal address is accepted with the frame `[a << 1, r, n]` ready to send. -/
def Obligations.RdAcceptedWithItsFrame : Prop :=
  ∀ (a r n : Nat) (s : State), s.phase = .idle → s.transportOpen = true →
    a ≤ 63 → r ≤ 255 → n ≤ 255 →
    ∃ t, exec (.rd a r n) s = .next t ∧ t.phase = .tx ∧ t.opLatch = .transaction .rd ∧
      t.txBuf = [BitVec.ofNat 8 (2 * a), BitVec.ofNat 8 r, BitVec.ofNat 8 n] ∧
      t.done = false ∧ t.lineTx = s.lineTx ∧ t.rxFifo = s.rxFifo ∧ t.crcAcc = s.crcAcc

/-- Rule R97: `RDNC` has the frame of `RD`. -/
def Obligations.RdncAcceptedWithItsFrame : Prop :=
  ∀ (a r n : Nat) (s : State), s.phase = .idle → s.transportOpen = true →
    a ≤ 63 → r ≤ 255 → n ≤ 255 →
    ∃ t, exec (.rdnc a r n) s = .next t ∧ t.phase = .tx ∧ t.opLatch = .transaction .rdnc ∧
      t.txBuf = [BitVec.ofNat 8 (2 * a), BitVec.ofNat 8 r, BitVec.ofNat 8 n] ∧
      t.done = false ∧ t.lineTx = s.lineTx ∧ t.rxFifo = s.rxFifo ∧ t.crcAcc = s.crcAcc

/-- Rule R98: `WR` has the frame `[(a << 1) | 1, r, v, c]` with `c` the checksum of the first three. -/
def Obligations.WrAcceptedWithItsFrame : Prop :=
  ∀ (a r v : Nat) (s : State), s.phase = .idle → s.transportOpen = true →
    a ≤ 63 → r ≤ 255 → v ≤ 255 →
    ∃ t c, exec (.wr a r v) s = .next t ∧ t.phase = .tx ∧ t.opLatch = .transaction .wr ∧
      t.txBuf = [BitVec.ofNat 8 (2 * a + 1), BitVec.ofNat 8 r, BitVec.ofNat 8 v, c] ∧
      c = checksum [BitVec.ofNat 8 (2 * a + 1), BitVec.ofNat 8 r, BitVec.ofNat 8 v] ∧
      t.done = false ∧ t.lineTx = s.lineTx ∧ t.rxFifo = s.rxFifo ∧ t.crcAcc = s.crcAcc

/-- Rule R132 and U6: a transaction before the transport is open is refused by name; opening it opens
it, and a port that cannot be opened stops the machine (log 7). That an opening may come in any state is the model's
choice (log 29). -/
def Obligations.TransportMustBeOpen : Prop :=
  (∀ (op : TransOp) (a r v : Nat) (s : State), s.phase = .idle → s.transportOpen = false →
    exec (transInstr op a r v) s = .refused .transportNotOpen) ∧
  ∀ (s : State) (rest : List Event),
    (s.schedule = .openTransport true :: rest →
      step s = .next { s with schedule := rest, transportOpen := true }) ∧
    (s.schedule = .openTransport false :: rest → step s = .fault .transportUnavailable)

/-- Rule R92: phase TX hands the whole of `TXBUF[0..TXLEN]` to the transport and goes to `SETTLE`,
whatever `TXBUF` holds, and takes nothing from `RXFIFO`. -/
def Obligations.TxPhaseSendsTheFrame : Prop :=
  ∀ s : State, s.phase = .tx →
    blockStep s = .next { s with lineTx := s.lineTx ++ s.txBuf, phase := .settle }

/-- Rule R93: the step from `SETTLE` to `RX` is always enabled. -/
def Obligations.SettlePhaseIsAlwaysEnabled : Prop :=
  ∀ s : State, s.phase = .settle → blockStep s = .next { s with phase := .rx }

/-- Rule R94: phase RX moves one pending byte, ends when nothing is pending, and overflows when
`RXLEN = RX_CAP`. -/
def Obligations.RxPhaseCollects : Prop :=
  ∀ s : State, s.phase = .rx →
    (s.rxFifo = [] → blockStep s = .next { s with phase := .check }) ∧
    (∀ b rest, s.rxFifo = b :: rest → Config.rxCap ≠ some s.rxBuf.length →
      blockStep s = .next { s with rxBuf := s.rxBuf ++ [b], rxFifo := rest }) ∧
    (∀ b rest, s.rxFifo = b :: rest → Config.rxCap = some s.rxBuf.length →
      blockStep s = .next
        { s with code := .rxOverflow, rxValid := false, rxBuf := [], done := true, phase := .idle })

/-- Rule R95: phase CHECK in its four branches. -/
def Obligations.CheckPhaseJudges : Prop :=
  ∀ s : State, s.phase = .check →
    (s.opLatch = .transaction .rdnc →
      blockStep s = .next { s with rxValid := true, code := .ok, done := true, phase := .idle }) ∧
    (s.opLatch ≠ .transaction .rdnc → s.rxBuf = [] →
      blockStep s = .next
        { s with code := .noResponse, rxValid := false, rxBuf := [], done := true, phase := .idle }) ∧
    (∀ rx crc, s.opLatch ≠ .transaction .rdnc → s.rxBuf = rx ++ [crc] → crc = checksum rx →
      blockStep s = .next
        { s with crcRx := crc, crcCalc := checksum rx, rxValid := true, code := .ok, done := true,
                 phase := .idle }) ∧
    (∀ rx crc, s.opLatch ≠ .transaction .rdnc → s.rxBuf = rx ++ [crc] → crc ≠ checksum rx →
      blockStep s = .next
        { s with crcRx := crc, crcCalc := checksum rx, code := .crcMismatch, rxValid := false,
                 rxBuf := [], done := true, phase := .idle })

/-- Rules R139, R138 (4): `OK` from RD or WR means exactly that the collected bytes have checksum 0. -/
def Obligations.OkMeansChecksumZero : Prop :=
  ∀ s t : State, s.phase = .check → s.opLatch ≠ .transaction .rdnc → s.rxBuf ≠ [] →
    blockStep s = .next t → (t.code = .ok ↔ checksum s.rxBuf = 0x00)

/-- Rule R90: the phases of a transaction reach what the one rule says. Refused operands: at once. Else,
whenever the block is back in IDLE, for every interleaving `es` of its steps with the environment's
deliveries and every stale content of `RXFIFO`: with `rx` the bytes it collected and `late` those that
came after. And it does get there, within a bound, when the deliveries are over before it looks. -/
def Obligations.TransactionRefinesBigStep : Prop :=
  (∀ (op : TransOp) (a r v : Nat) (rx : List Byte) (s : State), s.phase = .idle →
    s.transportOpen = true → encodeRequest a r v (transWrites op) = none →
    exec (transInstr op a r v) s = .next (bigStep op a r v rx s)) ∧
  (∀ (op : TransOp) (a r v k : Nat) (c : Word) (es : List Event) (s t : State),
    s.phase = .idle → s.transportOpen = true → a ≤ 63 → r ≤ 255 → v ≤ 255 →
    encode (transInstr op a r v) = .command c → s.schedule = .hostWrite 0x00 c :: es →
    (∀ e ∈ es, e = .block ∨ ∃ bytes, e = .deliver bytes) →
    runSteps (k + 1) s = .next t → t.phase = .idle →
    ∃ past rx late, es = past ++ t.schedule ∧ s.rxFifo ++ deliveredBytes past = rx ++ late ∧
      t = { bigStep op a r v rx s with rxFifo := leftAfterCollect rx ++ late, schedule := t.schedule }) ∧
  ∀ (op : TransOp) (a r v : Nat) (c : Word) (ds : List (List Byte)) (s : State),
    s.phase = .idle → s.transportOpen = true → a ≤ 63 → r ≤ 255 → v ≤ 255 →
    encode (transInstr op a r v) = .command c → s.schedule = transactionSchedule c ds →
    ∃ k, k ≤ s.rxFifo.length + ds.flatten.length + ds.length + 5 ∧
      runSteps k s = .next (bigStep op a r v (s.rxFifo ++ ds.flatten) { s with schedule := [] })

/-- Rule R100: under the conforming-environment premise RD and WR end `OK` with `rx = resp`. The
response comes in any number of deliveries. The rule marks this as the spec's own inference ("[derived:
from rule R94, rule R95 and 40_crc.md rule R75 law 2]"). -/
def Obligations.ConformingTransactionEndsOk : Prop :=
  ∀ (op : TransOp) (a r v : Nat) (c : Word) (f payload resp : List Byte) (ds : List (List Byte))
    (s : State),
    op ≠ .rdnc → s.phase = .idle → s.transportOpen = true → s.rxFifo = [] → r ≤ 255 → v ≤ 255 →
    encodeRequest a r v (transWrites op) = some f → encode (transInstr op a r v) = .command c →
    Conforming op v f payload resp → ds.flatten = resp → s.schedule = transactionSchedule c ds →
    ∃ k t, runSteps k s = .next t ∧ t.code = .ok ∧ t.rxValid = true ∧ t.rxBuf = resp ∧
      t.done = true ∧ t.phase = .idle ∧ t.crcRx = t.crcCalc ∧ t.rxFifo = [] ∧
      t.lineTx = s.lineTx ++ f

/-- Rule R102: a transaction ends with `PHASE = IDLE` and `DONE = 1`, within a bound on the steps, when
the environment stops delivering. Against an environment that delivers for ever, at least one byte before
each move of the block, it is one infinite run when `RX_CAP` is unbounded, and ends in `RX_OVERFLOW`
within a bound when it is finite. The form of that environment is the model's choice (log 27). -/
def Obligations.TransactionEnds : Prop :=
  (∀ s : State, s.phase ≠ .idle → s.schedule = [] →
    ∃ k t, k ≤ s.rxFifo.length + 4 ∧ runSteps k s = .next t ∧ t.phase = .idle ∧ t.done = true) ∧
  (∀ (s : State) (n : Nat) (rest : List Event), Config.rxCap = none →
    s.phase = .tx ∨ s.phase = .settle ∨ s.phase = .rx → s.schedule = .deliverForever n :: rest →
    ∀ k, ∃ t, runSteps k s = .next t ∧ t.opLatch = s.opLatch ∧
      (t.phase = .tx ∨ t.phase = .settle ∨ t.phase = .rx)) ∧
  ∀ (s : State) (n cap : Nat) (rest : List Event), Config.rxCap = some cap →
    s.phase = .tx ∨ s.phase = .settle ∨ s.phase = .rx → s.rxBuf.length ≤ cap →
    s.schedule = .deliverForever n :: rest →
    ∃ k t, k ≤ 2 * (cap + 3) ∧ runSteps k s = .next t ∧ t.phase = .idle ∧ t.done = true ∧
      t.code = .rxOverflow

/-- Rule R98, corner case: a conforming acknowledgment equals the request frame byte for byte. -/
def Obligations.ConformingAckIsTheRequest : Prop :=
  ∀ (a r v : Nat) (f : List Byte), encodeRequest a r v true = some f →
    conformingResponse (f.take 3) [] = f

/-! ## Faults -/

/-- Rules R57, R114: an illegal word changes nothing but `STATUS`, in every idle state. -/
def Obligations.IllegalCommandChangesOnlyStatus : Prop :=
  ∀ (s : State) (c : Word) (rest : List Event), s.phase = .idle →
    (∀ row ∈ commandRows, (c &&& row.mask) ≠ row.pattern) →
    s.schedule = .hostWrite 0x00 c :: rest →
    step s = .next { s with schedule := rest, code := .illegalCommand, done := true }

/-- Rule R119: what `raise` writes for each source, and that it writes nothing else. -/
def Obligations.RaiseWrites : Prop :=
  ∀ (s : State) (c : Code),
    s.raise .transaction c =
      { s with code := c, rxValid := false, rxBuf := [], done := true, phase := .idle } ∧
    s.raise .enc c = { s with code := c, done := true, txBuf := [] } ∧
    s.raise .word c = { s with code := c, done := true }

/-- Rule R120: while no transaction runs, `CODE`, `CRC_RX` and `CRC_CALC` keep their values over every
step but the acceptance of a command and the reset input. -/
def Obligations.OutcomeKeptUntilNextCommand : Prop :=
  ∀ s t : State, s.phase = .idle → step s = .next t →
    (∀ c rest, s.schedule ≠ .hostWrite 0x00 c :: rest) →
    (∀ sent rest, s.schedule ≠ .reset sent :: rest) →
    t.code = s.code ∧ t.crcRx = s.crcRx ∧ t.crcCalc = s.crcCalc ∧ t.done = s.done ∧
      t.rxValid = s.rxValid ∧ t.rxBuf = s.rxBuf

/-! ## The whole machine -/

/-- Rule R20: the registers a command does not write, whenever `exec` answers a next state. -/
def Obligations.CommandsWriteOnlyTheirRegisters : Prop :=
  ∀ (i : Instr) (s t : State), exec i s = .next t →
    (t.transportOpen = s.transportOpen ∧ t.schedule = s.schedule ∧ t.hostData = s.hostData) ∧
    ((∀ b, i ≠ .crcByte b) → i ≠ .crcInit → t.crcAcc = s.crcAcc) ∧
    ((∀ b, i ≠ .dec b) → t.decAddr = s.decAddr ∧ t.decWr = s.decWr ∧ t.decBlk = s.decBlk) ∧
    ((∀ op a r v, i ≠ transInstr op a r v) →
      t.rxBuf = s.rxBuf ∧ t.opLatch = s.opLatch ∧ t.rxValid = s.rxValid ∧ t.crcRx = s.crcRx ∧
      t.crcCalc = s.crcCalc) ∧
    ((∀ op a r v, i ≠ transInstr op a r v) → (∀ a r v w, i ≠ .enc a r v w) → t.txBuf = s.txBuf) ∧
    ((∀ e0 e1 e2 payload c, i ≠ .frameRsp e0 e1 e2 payload c) → t.rxFifo = s.rxFifo) ∧
    ((∀ a r n, i ≠ .frameRdReq a r n) → (∀ a r v c, i ≠ .frameWrReq a r v c) →
      t.lineTx = s.lineTx) ∧
    ((∀ a r n, i ≠ .frameRdReq a r n) → (∀ a r v c, i ≠ .frameWrReq a r v c) →
      (∀ op a r v, i ≠ transInstr op a r v) → t.phase = s.phase) ∧
    ((∀ c, encode i ≠ .command c) → t.done = s.done ∧ t.code = s.code)

/-- The block's phases write only the registers rule R20 gives the transactions. -/
def Obligations.PhasesWriteOnlyTheirRegisters : Prop :=
  ∀ s t : State, blockStep s = .next t →
    t.crcAcc = s.crcAcc ∧ t.decAddr = s.decAddr ∧ t.decWr = s.decWr ∧ t.decBlk = s.decBlk ∧
    t.txBuf = s.txBuf ∧ t.opLatch = s.opLatch ∧ t.transportOpen = s.transportOpen ∧
    t.schedule = s.schedule ∧ t.hostData = s.hostData ∧
    (s.phase ≠ .check → t.crcRx = s.crcRx ∧ t.crcCalc = s.crcCalc) ∧
    (s.opLatch = .transaction .rdnc → t.crcRx = s.crcRx ∧ t.crcCalc = s.crcCalc)

/-- Rules R50, R92, R124: a request frame goes out exactly in phase TX with that very frame in `TXBUF`;
anywhere else it is refused by name (log 2). -/
def Obligations.RequestFrameGoesOut : Prop :=
  ∀ s : State,
    (∀ a r n, s.phase = .tx → s.txBuf = [joinAddr false a false, r, n] →
      exec (.frameRdReq a r n) s = .next { s with lineTx := s.lineTx ++ s.txBuf, phase := .settle }) ∧
    (∀ a r v c, s.phase = .tx → s.txBuf = [joinAddr false a true, r, v, c] →
      exec (.frameWrReq a r v c) s =
        .next { s with lineTx := s.lineTx ++ s.txBuf, phase := .settle }) ∧
    (∀ a r n, (s.phase ≠ .tx ∨ s.txBuf ≠ [joinAddr false a false, r, n]) →
      exec (.frameRdReq a r n) s = .refused .frameNotInTransmission) ∧
    (∀ a r v c, (s.phase ≠ .tx ∨ s.txBuf ≠ [joinAddr false a true, r, v, c]) →
      exec (.frameWrReq a r v c) s = .refused .frameNotInTransmission)

/-- Rules R23, R99: a delivery is enabled in every state and appends its bytes to `RXFIFO`, a whole
response (FRAME.RSP) like any other, and one of the environment that delivers for ever, which brings at
least one byte and comes again after the block's move (that form is the model's choice, log 27). -/
def Obligations.DeliveryIsAlwaysEnabled : Prop :=
  ∀ (s : State) (rest : List Event),
    (∀ bytes, s.schedule = .deliver bytes :: rest →
      step s = .next { s with schedule := rest, rxFifo := s.rxFifo ++ bytes }) ∧
    (∀ n, s.schedule = .deliverForever n :: rest →
      Config.endlessDelivery n ≠ [] ∧
      step s = .next
        { s with schedule := .block :: .deliverForever (n + 1) :: rest,
                 rxFifo := s.rxFifo ++ Config.endlessDelivery n }) ∧
    ∀ e0 e1 e2 payload c,
      exec (.frameRsp e0 e1 e2 payload c) s =
        .next { s with rxFifo := s.rxFifo ++ [e0, e1, e2] ++ payload ++ [c] }

/-- Rules R99, R92, R93, R95: a delivery makes no difference to a step of the block outside phase RX,
but that its bytes are pending afterwards. -/
def Obligations.DeliveryCommutesOutsideRx : Prop :=
  ∀ (s t : State) (bytes : List Byte), s.phase ≠ .rx → blockStep s = .next t →
    blockStep { s with rxFifo := s.rxFifo ++ bytes } = .next { t with rxFifo := t.rxFifo ++ bytes }

/-- Rule R43 (1), (2): `LINE_TX` only grows, only in phase TX, and only by `TXBUF[0..TXLEN]`, whole but
for a reset in mid-frame. That such a reset adds exactly a beginning of the
frame, of the length the reset event carries, is the model's choice (log 8): rule R130 says only "in part
or in whole". -/
def Obligations.LineTxGrowsOnlyByFrames : Prop :=
  ∀ s t : State, step s = .next t →
    t.lineTx = s.lineTx ∨
    (s.phase = .tx ∧ t.phase = .settle ∧ t.lineTx = s.lineTx ++ s.txBuf) ∨
    (∃ sent rest, s.schedule = .reset sent :: rest ∧ s.phase = .tx ∧
      t.lineTx = s.lineTx ++ s.txBuf.take sent)

/-- Rules R23, R43 (3), R94: bytes enter `RXFIFO` at its end by delivery, and leave it at its head only
in phase RX, one at a time, into `RXBUF`. -/
def Obligations.RxFifoIsAQueue : Prop :=
  ∀ s t : State, step s = .next t →
    (∃ bytes, t.rxFifo = s.rxFifo ++ bytes ∧ (t.rxBuf = s.rxBuf ∨ t.rxBuf = [])) ∨
    (s.phase = .rx ∧ ∃ b, s.rxFifo = b :: t.rxFifo ∧ t.rxBuf = s.rxBuf ++ [b])

/-- Rules R91 to R95, R119, R130: the only ways `PHASE` changes. -/
def Obligations.PhaseOrder : Prop :=
  ∀ s t : State, step s = .next t → t.phase ≠ s.phase →
    (s.phase = .idle ∧ t.phase = .tx ∧ ∃ c rest, s.schedule = .hostWrite 0x00 c :: rest) ∨
    (s.phase = .tx ∧ t.phase = .settle) ∨
    (s.phase = .settle ∧ t.phase = .rx) ∨
    (s.phase = .rx ∧ t.phase = .check ∧ s.rxFifo = []) ∨
    (s.phase = .rx ∧ t.phase = .idle ∧ t.code = .rxOverflow) ∨
    (s.phase = .check ∧ t.phase = .idle ∧ t.done = true) ∨
    (t.phase = .idle ∧ ∃ sent rest, s.schedule = .reset sent :: rest)
end

