-- ==== Sys2Proof/Laws/Crc.lean ====
section
/-! SUPPORT. Small laws of the CRC functions (rules R70, R71, R84), for proofs to cite. -/

namespace Sys2Proof.Machine

@[simp] theorem crcFold_nil (acc : Byte) : crcFold acc [] = acc := rfl

@[simp] theorem crcFold_cons (acc b : Byte) (s : List Byte) :
    crcFold acc (b :: s) = crcFold (crcByte acc b) s := rfl

theorem crcFold_append (acc : Byte) (s t : List Byte) :
    crcFold acc (s ++ t) = crcFold (crcFold acc s) t := by
  induction s generalizing acc with
  | nil => rfl
  | cons b s ih => simp [ih]

@[simp] theorem checksum_nil : checksum [] = 0#8 := rfl

theorem checksum_append (s t : List Byte) : checksum (s ++ t) = crcFold (checksum s) t :=
  crcFold_append _ s t

/-- One shift step is linear over XOR. -/
theorem crcShift_xor (x y : Byte) : crcShift (x ^^^ y) = crcShift x ^^^ crcShift y := by
  unfold crcShift
  rw [BitVec.getLsbD_xor, BitVec.shiftLeft_xor_distrib]
  generalize x <<< 1 = u, y <<< 1 = v, Config.crcPoly = p
  cases x.getLsbD 7 <;> cases y.getLsbD 7 <;> ext i hi <;> simp <;>
    cases u[i] <;> cases v[i] <;> cases p[i] <;> rfl

theorem crcShifts_xor (n : Nat) (x y : Byte) :
    crcShifts n (x ^^^ y) = crcShifts n x ^^^ crcShifts n y := by
  induction n generalizing x y with
  | zero => rfl
  | succ n ih => simp [crcShifts, crcShift_xor, ih]

/-- A byte step as the shifts of both its arguments. -/
theorem crcByte_eq_xor (acc b : Byte) : crcByte acc b = crcShifts 8 acc ^^^ crcShifts 8 b :=
  crcShifts_xor 8 acc b

@[simp] theorem crcShifts_zero (n : Nat) : crcShifts n 0#8 = 0#8 := by
  induction n with
  | zero => rfl
  | succ n ih => simpa [crcShifts, crcShift] using ih

/-- The pair of rule R84 for a sequence cut at its last byte. -/
@[simp] theorem crcPair_concat (rx : List Byte) (crc : Byte) :
    crcPair (rx ++ [crc]) = some (crc, checksum rx) := by
  simp [crcPair]

@[simp] theorem crcPair_nil : crcPair [] = none := rfl

theorem crcOk_concat (rx : List Byte) (crc : Byte) :
    crcOk (rx ++ [crc]) = (crc == checksum rx) := by
  simp [crcOk]

end Sys2Proof.Machine
end

