-- ==== Sys2Proof/Laws/Decode.lean ====
section
/-! SUPPORT. Small laws of the command word's fields, of the rows of rule R55, of the address byte and of
the decoders. -/

namespace Sys2Proof

open Sys2Proof.Machine

/-! ## The command word (rule R54) -/

@[simp] theorem opField_commandWord (op : BitVec 4) (w : Bool) (a r v : Byte) :
    opField (commandWord op w a r v) = op := by
  ext i hi
  simp [opField, commandWord]
  grind

@[simp] theorem wField_commandWord (op : BitVec 4) (w : Bool) (a r v : Byte) :
    wField (commandWord op w a r v) = w := by
  simp [wField, commandWord]

@[simp] theorem aField_commandWord (op : BitVec 4) (w : Bool) (a r v : Byte) :
    aField (commandWord op w a r v) = a := by
  ext i hi
  simp [aField, commandWord]
  grind

@[simp] theorem rField_commandWord (op : BitVec 4) (w : Bool) (a r v : Byte) :
    rField (commandWord op w a r v) = r := by
  ext i hi
  simp [rField, commandWord]
  grind

@[simp] theorem vField_commandWord (op : BitVec 4) (w : Bool) (a r v : Byte) :
    vField (commandWord op w a r v) = v := by
  ext i hi
  simp [vField, commandWord]
  grind

/-- `RSV = CMD[27:25]` is zero in every built word. -/
@[simp] theorem rsv_commandWord (op : BitVec 4) (w : Bool) (a r v : Byte) :
    (commandWord op w a r v).extractLsb' 25 3 = 0 := by
  ext i hi
  simp [commandWord]
  grind

/-- A word with `RSV = 0` is its fields put together. -/
theorem commandWord_fields (c : Word) (h : c.extractLsb' 25 3 = 0) :
    commandWord (opField c) (wField c) (aField c) (rField c) (vField c) = c := by
  have h0 : c.getLsbD 25 = false := by
    simpa using congrArg (fun x : BitVec 3 => x.getLsbD 0) h
  have h1 : c.getLsbD 26 = false := by
    simpa using congrArg (fun x : BitVec 3 => x.getLsbD 1) h
  have h2 : c.getLsbD 27 = false := by
    simpa using congrArg (fun x : BitVec 3 => x.getLsbD 2) h
  apply BitVec.eq_of_getLsbD_eq
  intro i hi
  simp [commandWord, opField, wField, aField, rField, vField]
  grind

theorem wField_toNat (c : Word) : (wField c).toNat = c.toNat / 2 ^ 24 % 2 := by
  simp [wField, BitVec.getLsbD, Nat.toNat_testBit]

/-! ## The rows (rule R55) -/

/-- Masking away the low `k` bits is a test of the bits above them. -/
theorem and_high_eq_iff (k : Nat) (c m p : Word) (hm : m = BitVec.allOnes 32 <<< k)
    (hp : p = (p >>> k) <<< k) : (c &&& m) = p ↔ c >>> k = p >>> k := by
  have key : c &&& m = (c >>> k) <<< k := by
    subst hm
    apply BitVec.eq_of_getLsbD_eq
    intro i hi
    simp only [BitVec.getLsbD_and, BitVec.getLsbD_shiftLeft, BitVec.getLsbD_allOnes,
      BitVec.getLsbD_ushiftRight]
    by_cases h : i < k
    · simp [h]
    · have : i - k < 32 := by omega
      have : k + (i - k) = i := by omega
      simp [*]
  rw [key]
  constructor
  · intro h
    rw [← h]
    apply BitVec.eq_of_getLsbD_eq
    intro i hi
    simp only [BitVec.getLsbD_shiftLeft, BitVec.getLsbD_ushiftRight]
    by_cases h : k + i < 32
    · have : k + i - k = i := by omega
      simp [*]
    · have := BitVec.getLsbD_of_ge c (k + i) (by omega)
      simp [*]
  · intro h
    rw [h, ← hp]

theorem selects_crcInit_iff (c : Word) : rowCrcInit.selects c = true ↔ c = 0 := by
  rw [Row.selects, beq_iff_eq, and_high_eq_iff 0 c rowCrcInit.mask rowCrcInit.pattern rfl rfl]
  simp [rowCrcInit]

theorem selects_crcByte_iff (c : Word) : rowCrcByte.selects c = true ↔
    opField c = 1 ∧ c.extractLsb' 25 3 = 0 ∧ wField c = false ∧ aField c = 0 ∧ rField c = 0 := by
  have hw := wField_toNat c
  have hc := c.isLt
  rw [Row.selects, beq_iff_eq, and_high_eq_iff 8 c rowCrcByte.mask rowCrcByte.pattern rfl rfl]
  simp only [← BitVec.toNat_inj, rowCrcByte, opField, aField, rField, BitVec.toNat_ushiftRight,
    BitVec.extractLsb'_toNat, Nat.shiftRight_eq_div_pow]
  cases h : wField c <;> simp [h] at hw ⊢ <;> omega

theorem selects_enc_iff (c : Word) : rowEnc.selects c = true ↔
    opField c = 2 ∧ c.extractLsb' 25 3 = 0 := by
  have hc := c.isLt
  rw [Row.selects, beq_iff_eq, and_high_eq_iff 25 c rowEnc.mask rowEnc.pattern rfl rfl]
  simp only [← BitVec.toNat_inj, rowEnc, opField, BitVec.toNat_ushiftRight,
    BitVec.extractLsb'_toNat, Nat.shiftRight_eq_div_pow]
  simp
  omega

theorem selects_dec_iff (c : Word) : rowDec.selects c = true ↔
    opField c = 3 ∧ c.extractLsb' 25 3 = 0 ∧ wField c = false ∧ aField c = 0 ∧ rField c = 0 := by
  have hw := wField_toNat c
  have hc := c.isLt
  rw [Row.selects, beq_iff_eq, and_high_eq_iff 8 c rowDec.mask rowDec.pattern rfl rfl]
  simp only [← BitVec.toNat_inj, rowDec, opField, aField, rField, BitVec.toNat_ushiftRight,
    BitVec.extractLsb'_toNat, Nat.shiftRight_eq_div_pow]
  cases h : wField c <;> simp [h] at hw ⊢ <;> omega

theorem selects_rd_iff (c : Word) : rowRd.selects c = true ↔
    opField c = 4 ∧ c.extractLsb' 25 3 = 0 ∧ wField c = false := by
  have hw := wField_toNat c
  have hc := c.isLt
  rw [Row.selects, beq_iff_eq, and_high_eq_iff 24 c rowRd.mask rowRd.pattern rfl rfl]
  simp only [← BitVec.toNat_inj, rowRd, opField, BitVec.toNat_ushiftRight,
    BitVec.extractLsb'_toNat, Nat.shiftRight_eq_div_pow]
  cases h : wField c <;> simp [h] at hw ⊢ <;> omega

theorem selects_rdnc_iff (c : Word) : rowRdnc.selects c = true ↔
    opField c = 5 ∧ c.extractLsb' 25 3 = 0 ∧ wField c = false := by
  have hw := wField_toNat c
  have hc := c.isLt
  rw [Row.selects, beq_iff_eq, and_high_eq_iff 24 c rowRdnc.mask rowRdnc.pattern rfl rfl]
  simp only [← BitVec.toNat_inj, rowRdnc, opField, BitVec.toNat_ushiftRight,
    BitVec.extractLsb'_toNat, Nat.shiftRight_eq_div_pow]
  cases h : wField c <;> simp [h] at hw ⊢ <;> omega

theorem selects_wr_iff (c : Word) : rowWr.selects c = true ↔
    opField c = 6 ∧ c.extractLsb' 25 3 = 0 ∧ wField c = false := by
  have hw := wField_toNat c
  have hc := c.isLt
  rw [Row.selects, beq_iff_eq, and_high_eq_iff 24 c rowWr.mask rowWr.pattern rfl rfl]
  simp only [← BitVec.toNat_inj, rowWr, opField, BitVec.toNat_ushiftRight,
    BitVec.extractLsb'_toNat, Nat.shiftRight_eq_div_pow]
  cases h : wField c <;> simp [h] at hw ⊢ <;> omega

/-- The opcode of the row that a word selects. -/
theorem opField_of_selects {row : Row} {c : Word} (hr : row ∈ commandRows)
    (h : row.selects c = true) : opField c = opField row.pattern := by
  simp only [commandRows, List.mem_cons, List.not_mem_nil, or_false] at hr
  rcases hr with rfl | rfl | rfl | rfl | rfl | rfl | rfl
  · rw [(selects_crcInit_iff c).1 h]; rfl
  · rw [((selects_crcByte_iff c).1 h).1]; rfl
  · rw [((selects_enc_iff c).1 h).1]; rfl
  · rw [((selects_dec_iff c).1 h).1]; rfl
  · rw [((selects_rd_iff c).1 h).1]; rfl
  · rw [((selects_rdnc_iff c).1 h).1]; rfl
  · rw [((selects_wr_iff c).1 h).1]; rfl

/-- A word of another opcode does not select the row. -/
theorem selects_eq_false {row : Row} {c : Word} (hr : row ∈ commandRows)
    (h : opField c ≠ opField row.pattern) : row.selects c = false := by
  cases hs : row.selects c with
  | false => rfl
  | true => exact absurd (opField_of_selects hr hs) h

theorem decodeCommand_crcInit {c : Word} (h : rowCrcInit.selects c = true) :
    decodeCommand c = .ok .crcInit := by
  simp [decodeCommand, h]

theorem decodeCommand_crcByte {c : Word} (h : rowCrcByte.selects c = true) :
    decodeCommand c = .ok (.crcByte (vField c)) := by
  have ho := opField_of_selects (by simp [commandRows]) h
  have hCrcInit : rowCrcInit.selects c = false :=
    selects_eq_false (by simp [commandRows]) (by rw [ho]; decide)
  simp [decodeCommand, h, hCrcInit]

theorem decodeCommand_enc {c : Word} (h : rowEnc.selects c = true) :
    decodeCommand c = .ok (.enc (aField c).toNat (rField c).toNat (vField c).toNat (wField c)) := by
  have ho := opField_of_selects (by simp [commandRows]) h
  have hCrcInit : rowCrcInit.selects c = false :=
    selects_eq_false (by simp [commandRows]) (by rw [ho]; decide)
  have hCrcByte : rowCrcByte.selects c = false :=
    selects_eq_false (by simp [commandRows]) (by rw [ho]; decide)
  simp [decodeCommand, h, hCrcInit, hCrcByte]

theorem decodeCommand_dec {c : Word} (h : rowDec.selects c = true) :
    decodeCommand c = .ok (.dec (vField c)) := by
  have ho := opField_of_selects (by simp [commandRows]) h
  have hCrcInit : rowCrcInit.selects c = false :=
    selects_eq_false (by simp [commandRows]) (by rw [ho]; decide)
  have hCrcByte : rowCrcByte.selects c = false :=
    selects_eq_false (by simp [commandRows]) (by rw [ho]; decide)
  have hEnc : rowEnc.selects c = false :=
    selects_eq_false (by simp [commandRows]) (by rw [ho]; decide)
  simp [decodeCommand, h, hCrcInit, hCrcByte, hEnc]

theorem decodeCommand_rd {c : Word} (h : rowRd.selects c = true) :
    decodeCommand c = .ok (.rd (aField c).toNat (rField c).toNat (vField c).toNat) := by
  have ho := opField_of_selects (by simp [commandRows]) h
  have hCrcInit : rowCrcInit.selects c = false :=
    selects_eq_false (by simp [commandRows]) (by rw [ho]; decide)
  have hCrcByte : rowCrcByte.selects c = false :=
    selects_eq_false (by simp [commandRows]) (by rw [ho]; decide)
  have hEnc : rowEnc.selects c = false :=
    selects_eq_false (by simp [commandRows]) (by rw [ho]; decide)
  have hDec : rowDec.selects c = false :=
    selects_eq_false (by simp [commandRows]) (by rw [ho]; decide)
  simp [decodeCommand, h, hCrcInit, hCrcByte, hEnc, hDec]

theorem decodeCommand_rdnc {c : Word} (h : rowRdnc.selects c = true) :
    decodeCommand c = .ok (.rdnc (aField c).toNat (rField c).toNat (vField c).toNat) := by
  have ho := opField_of_selects (by simp [commandRows]) h
  have hCrcInit : rowCrcInit.selects c = false :=
    selects_eq_false (by simp [commandRows]) (by rw [ho]; decide)
  have hCrcByte : rowCrcByte.selects c = false :=
    selects_eq_false (by simp [commandRows]) (by rw [ho]; decide)
  have hEnc : rowEnc.selects c = false :=
    selects_eq_false (by simp [commandRows]) (by rw [ho]; decide)
  have hDec : rowDec.selects c = false :=
    selects_eq_false (by simp [commandRows]) (by rw [ho]; decide)
  have hRd : rowRd.selects c = false :=
    selects_eq_false (by simp [commandRows]) (by rw [ho]; decide)
  simp [decodeCommand, h, hCrcInit, hCrcByte, hEnc, hDec, hRd]

theorem decodeCommand_wr {c : Word} (h : rowWr.selects c = true) :
    decodeCommand c = .ok (.wr (aField c).toNat (rField c).toNat (vField c).toNat) := by
  have ho := opField_of_selects (by simp [commandRows]) h
  have hCrcInit : rowCrcInit.selects c = false :=
    selects_eq_false (by simp [commandRows]) (by rw [ho]; decide)
  have hCrcByte : rowCrcByte.selects c = false :=
    selects_eq_false (by simp [commandRows]) (by rw [ho]; decide)
  have hEnc : rowEnc.selects c = false :=
    selects_eq_false (by simp [commandRows]) (by rw [ho]; decide)
  have hDec : rowDec.selects c = false :=
    selects_eq_false (by simp [commandRows]) (by rw [ho]; decide)
  have hRd : rowRd.selects c = false :=
    selects_eq_false (by simp [commandRows]) (by rw [ho]; decide)
  have hRdnc : rowRdnc.selects c = false :=
    selects_eq_false (by simp [commandRows]) (by rw [ho]; decide)
  simp [decodeCommand, h, hCrcInit, hCrcByte, hEnc, hDec, hRd, hRdnc]

/-- What decodes as a command selects the row of its instruction. -/
theorem decodeCommand_ok {c : Word} {i : Instr} (h : decodeCommand c = .ok i) :
    (rowCrcInit.selects c = true ∧ i = .crcInit) ∨
    (rowCrcByte.selects c = true ∧ i = (.crcByte (vField c))) ∨
    (rowEnc.selects c = true ∧ i = (.enc (aField c).toNat (rField c).toNat (vField c).toNat (wField c))) ∨
    (rowDec.selects c = true ∧ i = (.dec (vField c))) ∨
    (rowRd.selects c = true ∧ i = (.rd (aField c).toNat (rField c).toNat (vField c).toNat)) ∨
    (rowRdnc.selects c = true ∧ i = (.rdnc (aField c).toNat (rField c).toNat (vField c).toNat)) ∨
    (rowWr.selects c = true ∧ i = (.wr (aField c).toNat (rField c).toNat (vField c).toNat)) := by
  unfold decodeCommand at h
  split at h
  · exact .inl ⟨‹_›, by simpa using h.symm⟩
  split at h
  · exact .inr (.inl ⟨‹_›, by simpa using h.symm⟩)
  split at h
  · exact .inr (.inr (.inl ⟨‹_›, by simpa using h.symm⟩))
  split at h
  · exact .inr (.inr (.inr (.inl ⟨‹_›, by simpa using h.symm⟩)))
  split at h
  · exact .inr (.inr (.inr (.inr (.inl ⟨‹_›, by simpa using h.symm⟩))))
  split at h
  · exact .inr (.inr (.inr (.inr (.inr (.inl ⟨‹_›, by simpa using h.symm⟩)))))
  split at h
  · exact .inr (.inr (.inr (.inr (.inr (.inr ⟨‹_›, by simpa using h.symm⟩)))))
  · cases h

/-- A word that decodes to no command selects no row, and is rejected by rule R57's two names. -/
theorem decodeCommand_error {c : Word} {e : DecodeError} (h : decodeCommand c = .error e) :
    (∀ row ∈ commandRows, row.selects c = false) ∧ e = rejectCommand c := by
  unfold decodeCommand at h
  simp only [commandRows, List.mem_cons, List.not_mem_nil, or_false]
  repeat' split at h
  · cases h
  · cases h
  · cases h
  · cases h
  · cases h
  · cases h
  · cases h
  cases h
  refine ⟨?_, rfl⟩
  rintro row (rfl | rfl | rfl | rfl | rfl | rfl | rfl) <;> simp_all

/-! ## The address byte (rules R51, R82) -/

@[simp] theorem addrField_joinAddr (blk wr : Bool) (a : BitVec 6) :
    addrField (joinAddr blk a wr) = a := by
  ext i hi
  simp [addrField, joinAddr]
  grind

@[simp] theorem blkField_joinAddr (blk wr : Bool) (a : BitVec 6) :
    blkField (joinAddr blk a wr) = blk := by
  simp [blkField, joinAddr]

@[simp] theorem wrField_joinAddr (blk wr : Bool) (a : BitVec 6) :
    wrField (joinAddr blk a wr) = wr := by
  simp [wrField, joinAddr]

/-- A byte with `BLK = 0` is its address and write bit put together. -/
theorem joinAddr_of_blk_clear : ∀ b : Byte, blkField b = false →
    joinAddr false (addrField b) (wrField b) = b := by decide

/-- The address byte of rule R80 as its fields put together. -/
theorem addressByte_eq_joinAddr (a : Nat) (w : Bool) (h : a ≤ 63) :
    addressByte a w = joinAddr false (BitVec.ofNat 6 a) w := by
  have key : ∀ (a : Fin 64) (w : Bool),
      addressByte a.val w = joinAddr false (BitVec.ofNat 6 a.val) w := by decide
  exact key ⟨a, by omega⟩ w

/-! ## Frames -/

/-- A response cut at its last byte decodes to its parts. -/
theorem decodeResponse_concat (e0 e1 e2 c : Byte) (payload : List Byte) :
    decodeResponse (e0 :: e1 :: e2 :: (payload ++ [c])) = .ok (.frameRsp e0 e1 e2 payload c) := by
  cases payload with
  | nil => simp [decodeResponse]
  | cons p ps =>
    have h : p :: (ps ++ [c]) = (p :: ps) ++ [c] := rfl
    simp only [List.cons_append, decodeResponse]
    rw [h, List.dropLast_concat, List.getLastD_concat]

/-- What decodes as a response is the response's bytes in order. -/
theorem decodeResponse_ok {bytes : List Byte} {i : Instr} (h : decodeResponse bytes = .ok i) :
    ∃ e0 e1 e2 payload c, i = .frameRsp e0 e1 e2 payload c ∧
      bytes = e0 :: e1 :: e2 :: (payload ++ [c]) := by
  unfold decodeResponse at h
  split at h
  · rename_i e0 e1 e2 p rest
    refine ⟨e0, e1, e2, (p :: rest).dropLast, (p :: rest).getLastD p, ?_, ?_⟩
    · simpa using h.symm
    · have := List.dropLast_append_getLast (List.cons_ne_nil p rest)
      rw [List.getLastD_eq_getLast?, List.getLast?_eq_some_getLast (List.cons_ne_nil p rest)]
      simp only [Option.getD_some, this]
  · cases h

/-- What decodes as a request is the request's bytes in order. -/
theorem decodeRequest_ok {bytes : List Byte} {i : Instr} (h : decodeRequest bytes = .ok i) :
    (∃ a r n, i = .frameRdReq a r n ∧ bytes = [joinAddr false a false, r, n]) ∨
    (∃ a r v c, i = .frameWrReq a r v c ∧ bytes = [joinAddr false a true, r, v, c]) := by
  unfold decodeRequest at h
  split at h
  · rename_i b0 r n
    by_cases hb : blkField b0 = true <;> by_cases hw : wrField b0 = true <;> simp [hb, hw] at h
    simp only [Bool.not_eq_true] at hb hw
    have := joinAddr_of_blk_clear b0 hb
    rw [hw] at this
    exact .inl ⟨_, _, _, h.symm, by rw [this]⟩
  · rename_i b0 r v c
    by_cases hb : blkField b0 = true <;> by_cases hw : wrField b0 = true <;> simp [hb, hw] at h
    simp only [Bool.not_eq_true] at hb
    have := joinAddr_of_blk_clear b0 hb
    rw [hw] at this
    exact .inr ⟨_, _, _, _, h.symm, by rw [this]⟩
  · cases h

end Sys2Proof
end

