-- ==== Sys2Proof/Laws/Host.lean ====
section
/-! SUPPORT. What the host's machines do with a result: a sequence stops at the first fault, a poll cycle
does not. -/

namespace Sys2Proof.Machine

/-! ## Sequences (rule R151) -/

@[simp] theorem Sequence.command_proceed (commands : List Instr) (responses : List (List Byte)) :
    (Sequence.proceed commands responses).command = commands.head? := by
  cases commands <;> rfl

/-- `OK` goes on to the next command with the response kept. -/
theorem Sequence.next_of_ok {i : Instr} {rest : List Instr} {responses : List (List Byte)}
    {r : HostResult} (h : r.code = .ok) :
    (Sequence.running i rest responses).next r = .proceed rest (responses ++ [r.rx]) := by
  simp [Sequence.next, h]

/-- Any other `CODE` ends the sequence with the command and the code. -/
theorem Sequence.next_of_fault {i : Instr} {rest : List Instr} {responses : List (List Byte)}
    {r : HostResult} (h : r.code ≠ .ok) :
    (Sequence.running i rest responses).next r = .failed i r.code := by
  simp [Sequence.next, h]

/-- After a fault nothing is issued. -/
theorem Sequence.command_next_of_fault {q : Sequence} {r : HostResult} (h : r.code ≠ .ok) :
    (q.next r).command = none := by
  cases q <;> simp [Sequence.next, h, Sequence.command]

/-! ## The poll cycle (rule R153) -/

/-- A module whose command faults is recorded as failed, and the cycle goes on with the next module. -/
theorem Poll.next_of_fault {m : Nat} {i : Instr} {more : List Instr} {responses : List (List Byte)}
    {rest : List Nat} {results : List (Nat × Sequence)} {r : HostResult} (h : r.code ≠ .ok) :
    (Poll.reading m (.running i more responses) rest results).next r =
      .proceed rest (results ++ [(m, .failed i r.code)]) := by
  simp [Poll.next, Sequence.next_of_fault h, Sequence.command]

/-- What a poll cycle issues when it comes to a module: the first command of that module's sequence. -/
theorem Poll.command_proceed (m : Nat) (rest : List Nat) (results : List (Nat × Sequence)) :
    (Poll.proceed (m :: rest) results).command = some (.rd m 0x20 4) := rfl

/-! ## The host at work (rule R156) -/

theorem drive_nil {host : Type} (command : host → Option Instr) (next : host → HostResult → host)
    (h : host) (s : State) : drive command next [] h s = (h, .next s) := rfl

/-- A host that issues nothing more leaves the block alone. -/
theorem drive_of_none {host : Type} {command : host → Option Instr}
    {next : host → HostResult → host} {h : host} (hc : command h = none)
    (deliveries : List (List Byte)) (s : State) :
    drive command next deliveries h s = (h, .next s) := by
  cases deliveries <;> simp [drive, hc]

/-- One command, and the rest of the work from its result. -/
theorem drive_of_issue {host : Type} {command : host → Option Instr}
    {next : host → HostResult → host} {h : host} {i : Instr} {delivered : List Byte} {s t : State}
    (hc : command h = some i) (hi : issue i delivered s = .next t) (deliveries : List (List Byte)) :
    drive command next (delivered :: deliveries) h s =
      drive command next deliveries (next h t.hostResult) t := by
  simp [drive, hc, hi]

/-- A sequence that has failed issues nothing, whatever is delivered: the first fault is the last
command. -/
theorem driveSequence_failed (i : Instr) (c : Code) (deliveries : List (List Byte)) (s : State) :
    driveSequence deliveries (.failed i c) s = (.failed i c, .next s) :=
  drive_of_none rfl deliveries s

end Sys2Proof.Machine
end

