-- ==== Sys2Proof/Laws/State.lean ====
section
/-! SUPPORT. One lemma per field per update of Machine/Ops.lean, each true by rfl, so that no proof unfolds
a record update. -/

namespace Sys2Proof.Machine

variable (s : State)

@[simp] theorem State.raise_transaction (c : Code) :
    s.raise .transaction c = s.raiseTransaction c := rfl
@[simp] theorem State.raise_enc (c : Code) : s.raise .enc c = s.raiseEnc c := rfl
@[simp] theorem State.raise_word (c : Code) : s.raise .word c = s.raiseWord c := rfl

/-! ### finishOk -/

@[simp] theorem State.finishOk_crcAcc : (s.finishOk).crcAcc = s.crcAcc := rfl
@[simp] theorem State.finishOk_txBuf : (s.finishOk).txBuf = s.txBuf := rfl
@[simp] theorem State.finishOk_rxBuf : (s.finishOk).rxBuf = s.rxBuf := rfl
@[simp] theorem State.finishOk_decAddr : (s.finishOk).decAddr = s.decAddr := rfl
@[simp] theorem State.finishOk_decWr : (s.finishOk).decWr = s.decWr := rfl
@[simp] theorem State.finishOk_decBlk : (s.finishOk).decBlk = s.decBlk := rfl
@[simp] theorem State.finishOk_phase : (s.finishOk).phase = s.phase := rfl
@[simp] theorem State.finishOk_opLatch : (s.finishOk).opLatch = s.opLatch := rfl
@[simp] theorem State.finishOk_done : (s.finishOk).done = true := rfl
@[simp] theorem State.finishOk_rxValid : (s.finishOk).rxValid = s.rxValid := rfl
@[simp] theorem State.finishOk_code : (s.finishOk).code = .ok := rfl
@[simp] theorem State.finishOk_crcRx : (s.finishOk).crcRx = s.crcRx := rfl
@[simp] theorem State.finishOk_crcCalc : (s.finishOk).crcCalc = s.crcCalc := rfl
@[simp] theorem State.finishOk_rxFifo : (s.finishOk).rxFifo = s.rxFifo := rfl
@[simp] theorem State.finishOk_lineTx : (s.finishOk).lineTx = s.lineTx := rfl
@[simp] theorem State.finishOk_transportOpen : (s.finishOk).transportOpen = s.transportOpen := rfl
@[simp] theorem State.finishOk_schedule : (s.finishOk).schedule = s.schedule := rfl
@[simp] theorem State.finishOk_hostData : (s.finishOk).hostData = s.hostData := rfl

/-! ### raiseTransaction -/

@[simp] theorem State.raiseTransaction_crcAcc (c : Code) :
    (s.raiseTransaction c).crcAcc = s.crcAcc := rfl
@[simp] theorem State.raiseTransaction_txBuf (c : Code) :
    (s.raiseTransaction c).txBuf = s.txBuf := rfl
@[simp] theorem State.raiseTransaction_rxBuf (c : Code) : (s.raiseTransaction c).rxBuf = [] := rfl
@[simp] theorem State.raiseTransaction_decAddr (c : Code) :
    (s.raiseTransaction c).decAddr = s.decAddr := rfl
@[simp] theorem State.raiseTransaction_decWr (c : Code) :
    (s.raiseTransaction c).decWr = s.decWr := rfl
@[simp] theorem State.raiseTransaction_decBlk (c : Code) :
    (s.raiseTransaction c).decBlk = s.decBlk := rfl
@[simp] theorem State.raiseTransaction_phase (c : Code) :
    (s.raiseTransaction c).phase = .idle := rfl
@[simp] theorem State.raiseTransaction_opLatch (c : Code) :
    (s.raiseTransaction c).opLatch = s.opLatch := rfl
@[simp] theorem State.raiseTransaction_done (c : Code) : (s.raiseTransaction c).done = true := rfl
@[simp] theorem State.raiseTransaction_rxValid (c : Code) :
    (s.raiseTransaction c).rxValid = false := rfl
@[simp] theorem State.raiseTransaction_code (c : Code) : (s.raiseTransaction c).code = c := rfl
@[simp] theorem State.raiseTransaction_crcRx (c : Code) :
    (s.raiseTransaction c).crcRx = s.crcRx := rfl
@[simp] theorem State.raiseTransaction_crcCalc (c : Code) :
    (s.raiseTransaction c).crcCalc = s.crcCalc := rfl
@[simp] theorem State.raiseTransaction_rxFifo (c : Code) :
    (s.raiseTransaction c).rxFifo = s.rxFifo := rfl
@[simp] theorem State.raiseTransaction_lineTx (c : Code) :
    (s.raiseTransaction c).lineTx = s.lineTx := rfl
@[simp] theorem State.raiseTransaction_transportOpen (c : Code) :
    (s.raiseTransaction c).transportOpen = s.transportOpen := rfl
@[simp] theorem State.raiseTransaction_schedule (c : Code) :
    (s.raiseTransaction c).schedule = s.schedule := rfl
@[simp] theorem State.raiseTransaction_hostData (c : Code) :
    (s.raiseTransaction c).hostData = s.hostData := rfl

/-! ### raiseEnc -/

@[simp] theorem State.raiseEnc_crcAcc (c : Code) : (s.raiseEnc c).crcAcc = s.crcAcc := rfl
@[simp] theorem State.raiseEnc_txBuf (c : Code) : (s.raiseEnc c).txBuf = [] := rfl
@[simp] theorem State.raiseEnc_rxBuf (c : Code) : (s.raiseEnc c).rxBuf = s.rxBuf := rfl
@[simp] theorem State.raiseEnc_decAddr (c : Code) : (s.raiseEnc c).decAddr = s.decAddr := rfl
@[simp] theorem State.raiseEnc_decWr (c : Code) : (s.raiseEnc c).decWr = s.decWr := rfl
@[simp] theorem State.raiseEnc_decBlk (c : Code) : (s.raiseEnc c).decBlk = s.decBlk := rfl
@[simp] theorem State.raiseEnc_phase (c : Code) : (s.raiseEnc c).phase = s.phase := rfl
@[simp] theorem State.raiseEnc_opLatch (c : Code) : (s.raiseEnc c).opLatch = s.opLatch := rfl
@[simp] theorem State.raiseEnc_done (c : Code) : (s.raiseEnc c).done = true := rfl
@[simp] theorem State.raiseEnc_rxValid (c : Code) : (s.raiseEnc c).rxValid = s.rxValid := rfl
@[simp] theorem State.raiseEnc_code (c : Code) : (s.raiseEnc c).code = c := rfl
@[simp] theorem State.raiseEnc_crcRx (c : Code) : (s.raiseEnc c).crcRx = s.crcRx := rfl
@[simp] theorem State.raiseEnc_crcCalc (c : Code) : (s.raiseEnc c).crcCalc = s.crcCalc := rfl
@[simp] theorem State.raiseEnc_rxFifo (c : Code) : (s.raiseEnc c).rxFifo = s.rxFifo := rfl
@[simp] theorem State.raiseEnc_lineTx (c : Code) : (s.raiseEnc c).lineTx = s.lineTx := rfl
@[simp] theorem State.raiseEnc_transportOpen (c : Code) :
    (s.raiseEnc c).transportOpen = s.transportOpen := rfl
@[simp] theorem State.raiseEnc_schedule (c : Code) : (s.raiseEnc c).schedule = s.schedule := rfl
@[simp] theorem State.raiseEnc_hostData (c : Code) : (s.raiseEnc c).hostData = s.hostData := rfl

/-! ### raiseWord -/

@[simp] theorem State.raiseWord_crcAcc (c : Code) : (s.raiseWord c).crcAcc = s.crcAcc := rfl
@[simp] theorem State.raiseWord_txBuf (c : Code) : (s.raiseWord c).txBuf = s.txBuf := rfl
@[simp] theorem State.raiseWord_rxBuf (c : Code) : (s.raiseWord c).rxBuf = s.rxBuf := rfl
@[simp] theorem State.raiseWord_decAddr (c : Code) : (s.raiseWord c).decAddr = s.decAddr := rfl
@[simp] theorem State.raiseWord_decWr (c : Code) : (s.raiseWord c).decWr = s.decWr := rfl
@[simp] theorem State.raiseWord_decBlk (c : Code) : (s.raiseWord c).decBlk = s.decBlk := rfl
@[simp] theorem State.raiseWord_phase (c : Code) : (s.raiseWord c).phase = s.phase := rfl
@[simp] theorem State.raiseWord_opLatch (c : Code) : (s.raiseWord c).opLatch = s.opLatch := rfl
@[simp] theorem State.raiseWord_done (c : Code) : (s.raiseWord c).done = true := rfl
@[simp] theorem State.raiseWord_rxValid (c : Code) : (s.raiseWord c).rxValid = s.rxValid := rfl
@[simp] theorem State.raiseWord_code (c : Code) : (s.raiseWord c).code = c := rfl
@[simp] theorem State.raiseWord_crcRx (c : Code) : (s.raiseWord c).crcRx = s.crcRx := rfl
@[simp] theorem State.raiseWord_crcCalc (c : Code) : (s.raiseWord c).crcCalc = s.crcCalc := rfl
@[simp] theorem State.raiseWord_rxFifo (c : Code) : (s.raiseWord c).rxFifo = s.rxFifo := rfl
@[simp] theorem State.raiseWord_lineTx (c : Code) : (s.raiseWord c).lineTx = s.lineTx := rfl
@[simp] theorem State.raiseWord_transportOpen (c : Code) :
    (s.raiseWord c).transportOpen = s.transportOpen := rfl
@[simp] theorem State.raiseWord_schedule (c : Code) : (s.raiseWord c).schedule = s.schedule := rfl
@[simp] theorem State.raiseWord_hostData (c : Code) : (s.raiseWord c).hostData = s.hostData := rfl

/-! ### setCrcAcc -/

@[simp] theorem State.setCrcAcc_crcAcc (v : Byte) : (s.setCrcAcc v).crcAcc = v := rfl
@[simp] theorem State.setCrcAcc_txBuf (v : Byte) : (s.setCrcAcc v).txBuf = s.txBuf := rfl
@[simp] theorem State.setCrcAcc_rxBuf (v : Byte) : (s.setCrcAcc v).rxBuf = s.rxBuf := rfl
@[simp] theorem State.setCrcAcc_decAddr (v : Byte) : (s.setCrcAcc v).decAddr = s.decAddr := rfl
@[simp] theorem State.setCrcAcc_decWr (v : Byte) : (s.setCrcAcc v).decWr = s.decWr := rfl
@[simp] theorem State.setCrcAcc_decBlk (v : Byte) : (s.setCrcAcc v).decBlk = s.decBlk := rfl
@[simp] theorem State.setCrcAcc_phase (v : Byte) : (s.setCrcAcc v).phase = s.phase := rfl
@[simp] theorem State.setCrcAcc_opLatch (v : Byte) : (s.setCrcAcc v).opLatch = s.opLatch := rfl
@[simp] theorem State.setCrcAcc_done (v : Byte) : (s.setCrcAcc v).done = s.done := rfl
@[simp] theorem State.setCrcAcc_rxValid (v : Byte) : (s.setCrcAcc v).rxValid = s.rxValid := rfl
@[simp] theorem State.setCrcAcc_code (v : Byte) : (s.setCrcAcc v).code = s.code := rfl
@[simp] theorem State.setCrcAcc_crcRx (v : Byte) : (s.setCrcAcc v).crcRx = s.crcRx := rfl
@[simp] theorem State.setCrcAcc_crcCalc (v : Byte) : (s.setCrcAcc v).crcCalc = s.crcCalc := rfl
@[simp] theorem State.setCrcAcc_rxFifo (v : Byte) : (s.setCrcAcc v).rxFifo = s.rxFifo := rfl
@[simp] theorem State.setCrcAcc_lineTx (v : Byte) : (s.setCrcAcc v).lineTx = s.lineTx := rfl
@[simp] theorem State.setCrcAcc_transportOpen (v : Byte) :
    (s.setCrcAcc v).transportOpen = s.transportOpen := rfl
@[simp] theorem State.setCrcAcc_schedule (v : Byte) : (s.setCrcAcc v).schedule = s.schedule := rfl
@[simp] theorem State.setCrcAcc_hostData (v : Byte) : (s.setCrcAcc v).hostData = s.hostData := rfl

/-! ### setTxBuf -/

@[simp] theorem State.setTxBuf_crcAcc (f : List Byte) : (s.setTxBuf f).crcAcc = s.crcAcc := rfl
@[simp] theorem State.setTxBuf_txBuf (f : List Byte) : (s.setTxBuf f).txBuf = f := rfl
@[simp] theorem State.setTxBuf_rxBuf (f : List Byte) : (s.setTxBuf f).rxBuf = s.rxBuf := rfl
@[simp] theorem State.setTxBuf_decAddr (f : List Byte) : (s.setTxBuf f).decAddr = s.decAddr := rfl
@[simp] theorem State.setTxBuf_decWr (f : List Byte) : (s.setTxBuf f).decWr = s.decWr := rfl
@[simp] theorem State.setTxBuf_decBlk (f : List Byte) : (s.setTxBuf f).decBlk = s.decBlk := rfl
@[simp] theorem State.setTxBuf_phase (f : List Byte) : (s.setTxBuf f).phase = s.phase := rfl
@[simp] theorem State.setTxBuf_opLatch (f : List Byte) : (s.setTxBuf f).opLatch = s.opLatch := rfl
@[simp] theorem State.setTxBuf_done (f : List Byte) : (s.setTxBuf f).done = s.done := rfl
@[simp] theorem State.setTxBuf_rxValid (f : List Byte) : (s.setTxBuf f).rxValid = s.rxValid := rfl
@[simp] theorem State.setTxBuf_code (f : List Byte) : (s.setTxBuf f).code = s.code := rfl
@[simp] theorem State.setTxBuf_crcRx (f : List Byte) : (s.setTxBuf f).crcRx = s.crcRx := rfl
@[simp] theorem State.setTxBuf_crcCalc (f : List Byte) : (s.setTxBuf f).crcCalc = s.crcCalc := rfl
@[simp] theorem State.setTxBuf_rxFifo (f : List Byte) : (s.setTxBuf f).rxFifo = s.rxFifo := rfl
@[simp] theorem State.setTxBuf_lineTx (f : List Byte) : (s.setTxBuf f).lineTx = s.lineTx := rfl
@[simp] theorem State.setTxBuf_transportOpen (f : List Byte) :
    (s.setTxBuf f).transportOpen = s.transportOpen := rfl
@[simp] theorem State.setTxBuf_schedule (f : List Byte) :
    (s.setTxBuf f).schedule = s.schedule := rfl
@[simp] theorem State.setTxBuf_hostData (f : List Byte) :
    (s.setTxBuf f).hostData = s.hostData := rfl

/-! ### setDec -/

@[simp] theorem State.setDec_crcAcc (blk : Bool) (addr : BitVec 6) (wr : Bool) :
    (s.setDec blk addr wr).crcAcc = s.crcAcc := rfl
@[simp] theorem State.setDec_txBuf (blk : Bool) (addr : BitVec 6) (wr : Bool) :
    (s.setDec blk addr wr).txBuf = s.txBuf := rfl
@[simp] theorem State.setDec_rxBuf (blk : Bool) (addr : BitVec 6) (wr : Bool) :
    (s.setDec blk addr wr).rxBuf = s.rxBuf := rfl
@[simp] theorem State.setDec_decAddr (blk : Bool) (addr : BitVec 6) (wr : Bool) :
    (s.setDec blk addr wr).decAddr = addr := rfl
@[simp] theorem State.setDec_decWr (blk : Bool) (addr : BitVec 6) (wr : Bool) :
    (s.setDec blk addr wr).decWr = wr := rfl
@[simp] theorem State.setDec_decBlk (blk : Bool) (addr : BitVec 6) (wr : Bool) :
    (s.setDec blk addr wr).decBlk = blk := rfl
@[simp] theorem State.setDec_phase (blk : Bool) (addr : BitVec 6) (wr : Bool) :
    (s.setDec blk addr wr).phase = s.phase := rfl
@[simp] theorem State.setDec_opLatch (blk : Bool) (addr : BitVec 6) (wr : Bool) :
    (s.setDec blk addr wr).opLatch = s.opLatch := rfl
@[simp] theorem State.setDec_done (blk : Bool) (addr : BitVec 6) (wr : Bool) :
    (s.setDec blk addr wr).done = s.done := rfl
@[simp] theorem State.setDec_rxValid (blk : Bool) (addr : BitVec 6) (wr : Bool) :
    (s.setDec blk addr wr).rxValid = s.rxValid := rfl
@[simp] theorem State.setDec_code (blk : Bool) (addr : BitVec 6) (wr : Bool) :
    (s.setDec blk addr wr).code = s.code := rfl
@[simp] theorem State.setDec_crcRx (blk : Bool) (addr : BitVec 6) (wr : Bool) :
    (s.setDec blk addr wr).crcRx = s.crcRx := rfl
@[simp] theorem State.setDec_crcCalc (blk : Bool) (addr : BitVec 6) (wr : Bool) :
    (s.setDec blk addr wr).crcCalc = s.crcCalc := rfl
@[simp] theorem State.setDec_rxFifo (blk : Bool) (addr : BitVec 6) (wr : Bool) :
    (s.setDec blk addr wr).rxFifo = s.rxFifo := rfl
@[simp] theorem State.setDec_lineTx (blk : Bool) (addr : BitVec 6) (wr : Bool) :
    (s.setDec blk addr wr).lineTx = s.lineTx := rfl
@[simp] theorem State.setDec_transportOpen (blk : Bool) (addr : BitVec 6) (wr : Bool) :
    (s.setDec blk addr wr).transportOpen = s.transportOpen := rfl
@[simp] theorem State.setDec_schedule (blk : Bool) (addr : BitVec 6) (wr : Bool) :
    (s.setDec blk addr wr).schedule = s.schedule := rfl
@[simp] theorem State.setDec_hostData (blk : Bool) (addr : BitVec 6) (wr : Bool) :
    (s.setDec blk addr wr).hostData = s.hostData := rfl

/-! ### deliver -/

@[simp] theorem State.deliver_crcAcc (bytes : List Byte) :
    (s.deliver bytes).crcAcc = s.crcAcc := rfl
@[simp] theorem State.deliver_txBuf (bytes : List Byte) : (s.deliver bytes).txBuf = s.txBuf := rfl
@[simp] theorem State.deliver_rxBuf (bytes : List Byte) : (s.deliver bytes).rxBuf = s.rxBuf := rfl
@[simp] theorem State.deliver_decAddr (bytes : List Byte) :
    (s.deliver bytes).decAddr = s.decAddr := rfl
@[simp] theorem State.deliver_decWr (bytes : List Byte) : (s.deliver bytes).decWr = s.decWr := rfl
@[simp] theorem State.deliver_decBlk (bytes : List Byte) :
    (s.deliver bytes).decBlk = s.decBlk := rfl
@[simp] theorem State.deliver_phase (bytes : List Byte) : (s.deliver bytes).phase = s.phase := rfl
@[simp] theorem State.deliver_opLatch (bytes : List Byte) :
    (s.deliver bytes).opLatch = s.opLatch := rfl
@[simp] theorem State.deliver_done (bytes : List Byte) : (s.deliver bytes).done = s.done := rfl
@[simp] theorem State.deliver_rxValid (bytes : List Byte) :
    (s.deliver bytes).rxValid = s.rxValid := rfl
@[simp] theorem State.deliver_code (bytes : List Byte) : (s.deliver bytes).code = s.code := rfl
@[simp] theorem State.deliver_crcRx (bytes : List Byte) : (s.deliver bytes).crcRx = s.crcRx := rfl
@[simp] theorem State.deliver_crcCalc (bytes : List Byte) :
    (s.deliver bytes).crcCalc = s.crcCalc := rfl
@[simp] theorem State.deliver_rxFifo (bytes : List Byte) :
    (s.deliver bytes).rxFifo = s.rxFifo ++ bytes := rfl
@[simp] theorem State.deliver_lineTx (bytes : List Byte) :
    (s.deliver bytes).lineTx = s.lineTx := rfl
@[simp] theorem State.deliver_transportOpen (bytes : List Byte) :
    (s.deliver bytes).transportOpen = s.transportOpen := rfl
@[simp] theorem State.deliver_schedule (bytes : List Byte) :
    (s.deliver bytes).schedule = s.schedule := rfl
@[simp] theorem State.deliver_hostData (bytes : List Byte) :
    (s.deliver bytes).hostData = s.hostData := rfl

/-! ### transportWrite -/

@[simp] theorem State.transportWrite_crcAcc (f : List Byte) :
    (s.transportWrite f).crcAcc = s.crcAcc := rfl
@[simp] theorem State.transportWrite_txBuf (f : List Byte) :
    (s.transportWrite f).txBuf = s.txBuf := rfl
@[simp] theorem State.transportWrite_rxBuf (f : List Byte) :
    (s.transportWrite f).rxBuf = s.rxBuf := rfl
@[simp] theorem State.transportWrite_decAddr (f : List Byte) :
    (s.transportWrite f).decAddr = s.decAddr := rfl
@[simp] theorem State.transportWrite_decWr (f : List Byte) :
    (s.transportWrite f).decWr = s.decWr := rfl
@[simp] theorem State.transportWrite_decBlk (f : List Byte) :
    (s.transportWrite f).decBlk = s.decBlk := rfl
@[simp] theorem State.transportWrite_phase (f : List Byte) :
    (s.transportWrite f).phase = s.phase := rfl
@[simp] theorem State.transportWrite_opLatch (f : List Byte) :
    (s.transportWrite f).opLatch = s.opLatch := rfl
@[simp] theorem State.transportWrite_done (f : List Byte) :
    (s.transportWrite f).done = s.done := rfl
@[simp] theorem State.transportWrite_rxValid (f : List Byte) :
    (s.transportWrite f).rxValid = s.rxValid := rfl
@[simp] theorem State.transportWrite_code (f : List Byte) :
    (s.transportWrite f).code = s.code := rfl
@[simp] theorem State.transportWrite_crcRx (f : List Byte) :
    (s.transportWrite f).crcRx = s.crcRx := rfl
@[simp] theorem State.transportWrite_crcCalc (f : List Byte) :
    (s.transportWrite f).crcCalc = s.crcCalc := rfl
@[simp] theorem State.transportWrite_rxFifo (f : List Byte) :
    (s.transportWrite f).rxFifo = s.rxFifo := rfl
@[simp] theorem State.transportWrite_lineTx (f : List Byte) :
    (s.transportWrite f).lineTx = s.lineTx ++ f := rfl
@[simp] theorem State.transportWrite_transportOpen (f : List Byte) :
    (s.transportWrite f).transportOpen = s.transportOpen := rfl
@[simp] theorem State.transportWrite_schedule (f : List Byte) :
    (s.transportWrite f).schedule = s.schedule := rfl
@[simp] theorem State.transportWrite_hostData (f : List Byte) :
    (s.transportWrite f).hostData = s.hostData := rfl

/-! ### openTransport -/

@[simp] theorem State.openTransport_crcAcc : (s.openTransport).crcAcc = s.crcAcc := rfl
@[simp] theorem State.openTransport_txBuf : (s.openTransport).txBuf = s.txBuf := rfl
@[simp] theorem State.openTransport_rxBuf : (s.openTransport).rxBuf = s.rxBuf := rfl
@[simp] theorem State.openTransport_decAddr : (s.openTransport).decAddr = s.decAddr := rfl
@[simp] theorem State.openTransport_decWr : (s.openTransport).decWr = s.decWr := rfl
@[simp] theorem State.openTransport_decBlk : (s.openTransport).decBlk = s.decBlk := rfl
@[simp] theorem State.openTransport_phase : (s.openTransport).phase = s.phase := rfl
@[simp] theorem State.openTransport_opLatch : (s.openTransport).opLatch = s.opLatch := rfl
@[simp] theorem State.openTransport_done : (s.openTransport).done = s.done := rfl
@[simp] theorem State.openTransport_rxValid : (s.openTransport).rxValid = s.rxValid := rfl
@[simp] theorem State.openTransport_code : (s.openTransport).code = s.code := rfl
@[simp] theorem State.openTransport_crcRx : (s.openTransport).crcRx = s.crcRx := rfl
@[simp] theorem State.openTransport_crcCalc : (s.openTransport).crcCalc = s.crcCalc := rfl
@[simp] theorem State.openTransport_rxFifo : (s.openTransport).rxFifo = s.rxFifo := rfl
@[simp] theorem State.openTransport_lineTx : (s.openTransport).lineTx = s.lineTx := rfl
@[simp] theorem State.openTransport_transportOpen : (s.openTransport).transportOpen = true := rfl
@[simp] theorem State.openTransport_schedule : (s.openTransport).schedule = s.schedule := rfl
@[simp] theorem State.openTransport_hostData : (s.openTransport).hostData = s.hostData := rfl

/-! ### setPhase -/

@[simp] theorem State.setPhase_crcAcc (p : Phase) : (s.setPhase p).crcAcc = s.crcAcc := rfl
@[simp] theorem State.setPhase_txBuf (p : Phase) : (s.setPhase p).txBuf = s.txBuf := rfl
@[simp] theorem State.setPhase_rxBuf (p : Phase) : (s.setPhase p).rxBuf = s.rxBuf := rfl
@[simp] theorem State.setPhase_decAddr (p : Phase) : (s.setPhase p).decAddr = s.decAddr := rfl
@[simp] theorem State.setPhase_decWr (p : Phase) : (s.setPhase p).decWr = s.decWr := rfl
@[simp] theorem State.setPhase_decBlk (p : Phase) : (s.setPhase p).decBlk = s.decBlk := rfl
@[simp] theorem State.setPhase_phase (p : Phase) : (s.setPhase p).phase = p := rfl
@[simp] theorem State.setPhase_opLatch (p : Phase) : (s.setPhase p).opLatch = s.opLatch := rfl
@[simp] theorem State.setPhase_done (p : Phase) : (s.setPhase p).done = s.done := rfl
@[simp] theorem State.setPhase_rxValid (p : Phase) : (s.setPhase p).rxValid = s.rxValid := rfl
@[simp] theorem State.setPhase_code (p : Phase) : (s.setPhase p).code = s.code := rfl
@[simp] theorem State.setPhase_crcRx (p : Phase) : (s.setPhase p).crcRx = s.crcRx := rfl
@[simp] theorem State.setPhase_crcCalc (p : Phase) : (s.setPhase p).crcCalc = s.crcCalc := rfl
@[simp] theorem State.setPhase_rxFifo (p : Phase) : (s.setPhase p).rxFifo = s.rxFifo := rfl
@[simp] theorem State.setPhase_lineTx (p : Phase) : (s.setPhase p).lineTx = s.lineTx := rfl
@[simp] theorem State.setPhase_transportOpen (p : Phase) :
    (s.setPhase p).transportOpen = s.transportOpen := rfl
@[simp] theorem State.setPhase_schedule (p : Phase) : (s.setPhase p).schedule = s.schedule := rfl
@[simp] theorem State.setPhase_hostData (p : Phase) : (s.setPhase p).hostData = s.hostData := rfl

/-! ### clearForTransaction -/

@[simp] theorem State.clearForTransaction_crcAcc : (s.clearForTransaction).crcAcc = s.crcAcc := rfl
@[simp] theorem State.clearForTransaction_txBuf : (s.clearForTransaction).txBuf = [] := rfl
@[simp] theorem State.clearForTransaction_rxBuf : (s.clearForTransaction).rxBuf = [] := rfl
@[simp] theorem State.clearForTransaction_decAddr :
    (s.clearForTransaction).decAddr = s.decAddr := rfl
@[simp] theorem State.clearForTransaction_decWr : (s.clearForTransaction).decWr = s.decWr := rfl
@[simp] theorem State.clearForTransaction_decBlk : (s.clearForTransaction).decBlk = s.decBlk := rfl
@[simp] theorem State.clearForTransaction_phase : (s.clearForTransaction).phase = s.phase := rfl
@[simp] theorem State.clearForTransaction_opLatch :
    (s.clearForTransaction).opLatch = s.opLatch := rfl
@[simp] theorem State.clearForTransaction_done : (s.clearForTransaction).done = false := rfl
@[simp] theorem State.clearForTransaction_rxValid : (s.clearForTransaction).rxValid = false := rfl
@[simp] theorem State.clearForTransaction_code : (s.clearForTransaction).code = .ok := rfl
@[simp] theorem State.clearForTransaction_crcRx : (s.clearForTransaction).crcRx = 0 := rfl
@[simp] theorem State.clearForTransaction_crcCalc : (s.clearForTransaction).crcCalc = 0 := rfl
@[simp] theorem State.clearForTransaction_rxFifo : (s.clearForTransaction).rxFifo = s.rxFifo := rfl
@[simp] theorem State.clearForTransaction_lineTx : (s.clearForTransaction).lineTx = s.lineTx := rfl
@[simp] theorem State.clearForTransaction_transportOpen :
    (s.clearForTransaction).transportOpen = s.transportOpen := rfl
@[simp] theorem State.clearForTransaction_schedule :
    (s.clearForTransaction).schedule = s.schedule := rfl
@[simp] theorem State.clearForTransaction_hostData :
    (s.clearForTransaction).hostData = s.hostData := rfl

/-! ### startTransaction -/

@[simp] theorem State.startTransaction_crcAcc (op : TransOp) (f : List Byte) :
    (s.startTransaction op f).crcAcc = s.crcAcc := rfl
@[simp] theorem State.startTransaction_txBuf (op : TransOp) (f : List Byte) :
    (s.startTransaction op f).txBuf = f := rfl
@[simp] theorem State.startTransaction_rxBuf (op : TransOp) (f : List Byte) :
    (s.startTransaction op f).rxBuf = s.rxBuf := rfl
@[simp] theorem State.startTransaction_decAddr (op : TransOp) (f : List Byte) :
    (s.startTransaction op f).decAddr = s.decAddr := rfl
@[simp] theorem State.startTransaction_decWr (op : TransOp) (f : List Byte) :
    (s.startTransaction op f).decWr = s.decWr := rfl
@[simp] theorem State.startTransaction_decBlk (op : TransOp) (f : List Byte) :
    (s.startTransaction op f).decBlk = s.decBlk := rfl
@[simp] theorem State.startTransaction_phase (op : TransOp) (f : List Byte) :
    (s.startTransaction op f).phase = .tx := rfl
@[simp] theorem State.startTransaction_opLatch (op : TransOp) (f : List Byte) :
    (s.startTransaction op f).opLatch = .transaction op := rfl
@[simp] theorem State.startTransaction_done (op : TransOp) (f : List Byte) :
    (s.startTransaction op f).done = s.done := rfl
@[simp] theorem State.startTransaction_rxValid (op : TransOp) (f : List Byte) :
    (s.startTransaction op f).rxValid = s.rxValid := rfl
@[simp] theorem State.startTransaction_code (op : TransOp) (f : List Byte) :
    (s.startTransaction op f).code = s.code := rfl
@[simp] theorem State.startTransaction_crcRx (op : TransOp) (f : List Byte) :
    (s.startTransaction op f).crcRx = s.crcRx := rfl
@[simp] theorem State.startTransaction_crcCalc (op : TransOp) (f : List Byte) :
    (s.startTransaction op f).crcCalc = s.crcCalc := rfl
@[simp] theorem State.startTransaction_rxFifo (op : TransOp) (f : List Byte) :
    (s.startTransaction op f).rxFifo = s.rxFifo := rfl
@[simp] theorem State.startTransaction_lineTx (op : TransOp) (f : List Byte) :
    (s.startTransaction op f).lineTx = s.lineTx := rfl
@[simp] theorem State.startTransaction_transportOpen (op : TransOp) (f : List Byte) :
    (s.startTransaction op f).transportOpen = s.transportOpen := rfl
@[simp] theorem State.startTransaction_schedule (op : TransOp) (f : List Byte) :
    (s.startTransaction op f).schedule = s.schedule := rfl
@[simp] theorem State.startTransaction_hostData (op : TransOp) (f : List Byte) :
    (s.startTransaction op f).hostData = s.hostData := rfl

/-! ### transmit -/

@[simp] theorem State.transmit_crcAcc : (s.transmit).crcAcc = s.crcAcc := rfl
@[simp] theorem State.transmit_txBuf : (s.transmit).txBuf = s.txBuf := rfl
@[simp] theorem State.transmit_rxBuf : (s.transmit).rxBuf = s.rxBuf := rfl
@[simp] theorem State.transmit_decAddr : (s.transmit).decAddr = s.decAddr := rfl
@[simp] theorem State.transmit_decWr : (s.transmit).decWr = s.decWr := rfl
@[simp] theorem State.transmit_decBlk : (s.transmit).decBlk = s.decBlk := rfl
@[simp] theorem State.transmit_phase : (s.transmit).phase = .settle := rfl
@[simp] theorem State.transmit_opLatch : (s.transmit).opLatch = s.opLatch := rfl
@[simp] theorem State.transmit_done : (s.transmit).done = s.done := rfl
@[simp] theorem State.transmit_rxValid : (s.transmit).rxValid = s.rxValid := rfl
@[simp] theorem State.transmit_code : (s.transmit).code = s.code := rfl
@[simp] theorem State.transmit_crcRx : (s.transmit).crcRx = s.crcRx := rfl
@[simp] theorem State.transmit_crcCalc : (s.transmit).crcCalc = s.crcCalc := rfl
@[simp] theorem State.transmit_rxFifo : (s.transmit).rxFifo = s.rxFifo := rfl
@[simp] theorem State.transmit_lineTx : (s.transmit).lineTx = s.lineTx ++ s.txBuf := rfl
@[simp] theorem State.transmit_transportOpen : (s.transmit).transportOpen = s.transportOpen := rfl
@[simp] theorem State.transmit_schedule : (s.transmit).schedule = s.schedule := rfl
@[simp] theorem State.transmit_hostData : (s.transmit).hostData = s.hostData := rfl

/-! ### takeByte -/

@[simp] theorem State.takeByte_crcAcc (b : Byte) (rest : List Byte) :
    (s.takeByte b rest).crcAcc = s.crcAcc := rfl
@[simp] theorem State.takeByte_txBuf (b : Byte) (rest : List Byte) :
    (s.takeByte b rest).txBuf = s.txBuf := rfl
@[simp] theorem State.takeByte_rxBuf (b : Byte) (rest : List Byte) :
    (s.takeByte b rest).rxBuf = s.rxBuf ++ [b] := rfl
@[simp] theorem State.takeByte_decAddr (b : Byte) (rest : List Byte) :
    (s.takeByte b rest).decAddr = s.decAddr := rfl
@[simp] theorem State.takeByte_decWr (b : Byte) (rest : List Byte) :
    (s.takeByte b rest).decWr = s.decWr := rfl
@[simp] theorem State.takeByte_decBlk (b : Byte) (rest : List Byte) :
    (s.takeByte b rest).decBlk = s.decBlk := rfl
@[simp] theorem State.takeByte_phase (b : Byte) (rest : List Byte) :
    (s.takeByte b rest).phase = s.phase := rfl
@[simp] theorem State.takeByte_opLatch (b : Byte) (rest : List Byte) :
    (s.takeByte b rest).opLatch = s.opLatch := rfl
@[simp] theorem State.takeByte_done (b : Byte) (rest : List Byte) :
    (s.takeByte b rest).done = s.done := rfl
@[simp] theorem State.takeByte_rxValid (b : Byte) (rest : List Byte) :
    (s.takeByte b rest).rxValid = s.rxValid := rfl
@[simp] theorem State.takeByte_code (b : Byte) (rest : List Byte) :
    (s.takeByte b rest).code = s.code := rfl
@[simp] theorem State.takeByte_crcRx (b : Byte) (rest : List Byte) :
    (s.takeByte b rest).crcRx = s.crcRx := rfl
@[simp] theorem State.takeByte_crcCalc (b : Byte) (rest : List Byte) :
    (s.takeByte b rest).crcCalc = s.crcCalc := rfl
@[simp] theorem State.takeByte_rxFifo (b : Byte) (rest : List Byte) :
    (s.takeByte b rest).rxFifo = rest := rfl
@[simp] theorem State.takeByte_lineTx (b : Byte) (rest : List Byte) :
    (s.takeByte b rest).lineTx = s.lineTx := rfl
@[simp] theorem State.takeByte_transportOpen (b : Byte) (rest : List Byte) :
    (s.takeByte b rest).transportOpen = s.transportOpen := rfl
@[simp] theorem State.takeByte_schedule (b : Byte) (rest : List Byte) :
    (s.takeByte b rest).schedule = s.schedule := rfl
@[simp] theorem State.takeByte_hostData (b : Byte) (rest : List Byte) :
    (s.takeByte b rest).hostData = s.hostData := rfl

/-! ### completeTransaction -/

@[simp] theorem State.completeTransaction_crcAcc : (s.completeTransaction).crcAcc = s.crcAcc := rfl
@[simp] theorem State.completeTransaction_txBuf : (s.completeTransaction).txBuf = s.txBuf := rfl
@[simp] theorem State.completeTransaction_rxBuf : (s.completeTransaction).rxBuf = s.rxBuf := rfl
@[simp] theorem State.completeTransaction_decAddr :
    (s.completeTransaction).decAddr = s.decAddr := rfl
@[simp] theorem State.completeTransaction_decWr : (s.completeTransaction).decWr = s.decWr := rfl
@[simp] theorem State.completeTransaction_decBlk : (s.completeTransaction).decBlk = s.decBlk := rfl
@[simp] theorem State.completeTransaction_phase : (s.completeTransaction).phase = .idle := rfl
@[simp] theorem State.completeTransaction_opLatch :
    (s.completeTransaction).opLatch = s.opLatch := rfl
@[simp] theorem State.completeTransaction_done : (s.completeTransaction).done = true := rfl
@[simp] theorem State.completeTransaction_rxValid : (s.completeTransaction).rxValid = true := rfl
@[simp] theorem State.completeTransaction_code : (s.completeTransaction).code = .ok := rfl
@[simp] theorem State.completeTransaction_crcRx : (s.completeTransaction).crcRx = s.crcRx := rfl
@[simp] theorem State.completeTransaction_crcCalc :
    (s.completeTransaction).crcCalc = s.crcCalc := rfl
@[simp] theorem State.completeTransaction_rxFifo : (s.completeTransaction).rxFifo = s.rxFifo := rfl
@[simp] theorem State.completeTransaction_lineTx : (s.completeTransaction).lineTx = s.lineTx := rfl
@[simp] theorem State.completeTransaction_transportOpen :
    (s.completeTransaction).transportOpen = s.transportOpen := rfl
@[simp] theorem State.completeTransaction_schedule :
    (s.completeTransaction).schedule = s.schedule := rfl
@[simp] theorem State.completeTransaction_hostData :
    (s.completeTransaction).hostData = s.hostData := rfl

/-! ### setCrcPair -/

@[simp] theorem State.setCrcPair_crcAcc (claimed : Byte) (computed : Byte) :
    (s.setCrcPair claimed computed).crcAcc = s.crcAcc := rfl
@[simp] theorem State.setCrcPair_txBuf (claimed : Byte) (computed : Byte) :
    (s.setCrcPair claimed computed).txBuf = s.txBuf := rfl
@[simp] theorem State.setCrcPair_rxBuf (claimed : Byte) (computed : Byte) :
    (s.setCrcPair claimed computed).rxBuf = s.rxBuf := rfl
@[simp] theorem State.setCrcPair_decAddr (claimed : Byte) (computed : Byte) :
    (s.setCrcPair claimed computed).decAddr = s.decAddr := rfl
@[simp] theorem State.setCrcPair_decWr (claimed : Byte) (computed : Byte) :
    (s.setCrcPair claimed computed).decWr = s.decWr := rfl
@[simp] theorem State.setCrcPair_decBlk (claimed : Byte) (computed : Byte) :
    (s.setCrcPair claimed computed).decBlk = s.decBlk := rfl
@[simp] theorem State.setCrcPair_phase (claimed : Byte) (computed : Byte) :
    (s.setCrcPair claimed computed).phase = s.phase := rfl
@[simp] theorem State.setCrcPair_opLatch (claimed : Byte) (computed : Byte) :
    (s.setCrcPair claimed computed).opLatch = s.opLatch := rfl
@[simp] theorem State.setCrcPair_done (claimed : Byte) (computed : Byte) :
    (s.setCrcPair claimed computed).done = s.done := rfl
@[simp] theorem State.setCrcPair_rxValid (claimed : Byte) (computed : Byte) :
    (s.setCrcPair claimed computed).rxValid = s.rxValid := rfl
@[simp] theorem State.setCrcPair_code (claimed : Byte) (computed : Byte) :
    (s.setCrcPair claimed computed).code = s.code := rfl
@[simp] theorem State.setCrcPair_crcRx (claimed : Byte) (computed : Byte) :
    (s.setCrcPair claimed computed).crcRx = claimed := rfl
@[simp] theorem State.setCrcPair_crcCalc (claimed : Byte) (computed : Byte) :
    (s.setCrcPair claimed computed).crcCalc = computed := rfl
@[simp] theorem State.setCrcPair_rxFifo (claimed : Byte) (computed : Byte) :
    (s.setCrcPair claimed computed).rxFifo = s.rxFifo := rfl
@[simp] theorem State.setCrcPair_lineTx (claimed : Byte) (computed : Byte) :
    (s.setCrcPair claimed computed).lineTx = s.lineTx := rfl
@[simp] theorem State.setCrcPair_transportOpen (claimed : Byte) (computed : Byte) :
    (s.setCrcPair claimed computed).transportOpen = s.transportOpen := rfl
@[simp] theorem State.setCrcPair_schedule (claimed : Byte) (computed : Byte) :
    (s.setCrcPair claimed computed).schedule = s.schedule := rfl
@[simp] theorem State.setCrcPair_hostData (claimed : Byte) (computed : Byte) :
    (s.setCrcPair claimed computed).hostData = s.hostData := rfl

/-! ### resetBlock -/

@[simp] theorem State.resetBlock_crcAcc (sent : Nat) : (s.resetBlock sent).crcAcc = 0 := rfl
@[simp] theorem State.resetBlock_txBuf (sent : Nat) : (s.resetBlock sent).txBuf = [] := rfl
@[simp] theorem State.resetBlock_rxBuf (sent : Nat) : (s.resetBlock sent).rxBuf = [] := rfl
@[simp] theorem State.resetBlock_decAddr (sent : Nat) : (s.resetBlock sent).decAddr = 0 := rfl
@[simp] theorem State.resetBlock_decWr (sent : Nat) : (s.resetBlock sent).decWr = false := rfl
@[simp] theorem State.resetBlock_decBlk (sent : Nat) : (s.resetBlock sent).decBlk = false := rfl
@[simp] theorem State.resetBlock_phase (sent : Nat) : (s.resetBlock sent).phase = .idle := rfl
@[simp] theorem State.resetBlock_opLatch (sent : Nat) : (s.resetBlock sent).opLatch = .zero := rfl
@[simp] theorem State.resetBlock_done (sent : Nat) : (s.resetBlock sent).done = false := rfl
@[simp] theorem State.resetBlock_rxValid (sent : Nat) : (s.resetBlock sent).rxValid = false := rfl
@[simp] theorem State.resetBlock_code (sent : Nat) : (s.resetBlock sent).code = .ok := rfl
@[simp] theorem State.resetBlock_crcRx (sent : Nat) : (s.resetBlock sent).crcRx = 0 := rfl
@[simp] theorem State.resetBlock_crcCalc (sent : Nat) : (s.resetBlock sent).crcCalc = 0 := rfl
@[simp] theorem State.resetBlock_rxFifo (sent : Nat) : (s.resetBlock sent).rxFifo = s.rxFifo := rfl
@[simp] theorem State.resetBlock_lineTx (sent : Nat) :
    (s.resetBlock sent).lineTx = s.lineTx ++ s.sentAtReset sent := rfl
@[simp] theorem State.resetBlock_transportOpen (sent : Nat) :
    (s.resetBlock sent).transportOpen = s.transportOpen := rfl
@[simp] theorem State.resetBlock_schedule (sent : Nat) :
    (s.resetBlock sent).schedule = s.schedule := rfl
@[simp] theorem State.resetBlock_hostData (sent : Nat) :
    (s.resetBlock sent).hostData = s.hostData := rfl

/-! ### withSchedule -/

@[simp] theorem State.withSchedule_crcAcc (es : List Event) :
    (s.withSchedule es).crcAcc = s.crcAcc := rfl
@[simp] theorem State.withSchedule_txBuf (es : List Event) :
    (s.withSchedule es).txBuf = s.txBuf := rfl
@[simp] theorem State.withSchedule_rxBuf (es : List Event) :
    (s.withSchedule es).rxBuf = s.rxBuf := rfl
@[simp] theorem State.withSchedule_decAddr (es : List Event) :
    (s.withSchedule es).decAddr = s.decAddr := rfl
@[simp] theorem State.withSchedule_decWr (es : List Event) :
    (s.withSchedule es).decWr = s.decWr := rfl
@[simp] theorem State.withSchedule_decBlk (es : List Event) :
    (s.withSchedule es).decBlk = s.decBlk := rfl
@[simp] theorem State.withSchedule_phase (es : List Event) :
    (s.withSchedule es).phase = s.phase := rfl
@[simp] theorem State.withSchedule_opLatch (es : List Event) :
    (s.withSchedule es).opLatch = s.opLatch := rfl
@[simp] theorem State.withSchedule_done (es : List Event) : (s.withSchedule es).done = s.done := rfl
@[simp] theorem State.withSchedule_rxValid (es : List Event) :
    (s.withSchedule es).rxValid = s.rxValid := rfl
@[simp] theorem State.withSchedule_code (es : List Event) : (s.withSchedule es).code = s.code := rfl
@[simp] theorem State.withSchedule_crcRx (es : List Event) :
    (s.withSchedule es).crcRx = s.crcRx := rfl
@[simp] theorem State.withSchedule_crcCalc (es : List Event) :
    (s.withSchedule es).crcCalc = s.crcCalc := rfl
@[simp] theorem State.withSchedule_rxFifo (es : List Event) :
    (s.withSchedule es).rxFifo = s.rxFifo := rfl
@[simp] theorem State.withSchedule_lineTx (es : List Event) :
    (s.withSchedule es).lineTx = s.lineTx := rfl
@[simp] theorem State.withSchedule_transportOpen (es : List Event) :
    (s.withSchedule es).transportOpen = s.transportOpen := rfl
@[simp] theorem State.withSchedule_schedule (es : List Event) :
    (s.withSchedule es).schedule = es := rfl
@[simp] theorem State.withSchedule_hostData (es : List Event) :
    (s.withSchedule es).hostData = s.hostData := rfl

/-! ### setHostData -/

@[simp] theorem State.setHostData_crcAcc (v : Nat) : (s.setHostData v).crcAcc = s.crcAcc := rfl
@[simp] theorem State.setHostData_txBuf (v : Nat) : (s.setHostData v).txBuf = s.txBuf := rfl
@[simp] theorem State.setHostData_rxBuf (v : Nat) : (s.setHostData v).rxBuf = s.rxBuf := rfl
@[simp] theorem State.setHostData_decAddr (v : Nat) : (s.setHostData v).decAddr = s.decAddr := rfl
@[simp] theorem State.setHostData_decWr (v : Nat) : (s.setHostData v).decWr = s.decWr := rfl
@[simp] theorem State.setHostData_decBlk (v : Nat) : (s.setHostData v).decBlk = s.decBlk := rfl
@[simp] theorem State.setHostData_phase (v : Nat) : (s.setHostData v).phase = s.phase := rfl
@[simp] theorem State.setHostData_opLatch (v : Nat) : (s.setHostData v).opLatch = s.opLatch := rfl
@[simp] theorem State.setHostData_done (v : Nat) : (s.setHostData v).done = s.done := rfl
@[simp] theorem State.setHostData_rxValid (v : Nat) : (s.setHostData v).rxValid = s.rxValid := rfl
@[simp] theorem State.setHostData_code (v : Nat) : (s.setHostData v).code = s.code := rfl
@[simp] theorem State.setHostData_crcRx (v : Nat) : (s.setHostData v).crcRx = s.crcRx := rfl
@[simp] theorem State.setHostData_crcCalc (v : Nat) : (s.setHostData v).crcCalc = s.crcCalc := rfl
@[simp] theorem State.setHostData_rxFifo (v : Nat) : (s.setHostData v).rxFifo = s.rxFifo := rfl
@[simp] theorem State.setHostData_lineTx (v : Nat) : (s.setHostData v).lineTx = s.lineTx := rfl
@[simp] theorem State.setHostData_transportOpen (v : Nat) :
    (s.setHostData v).transportOpen = s.transportOpen := rfl
@[simp] theorem State.setHostData_schedule (v : Nat) :
    (s.setHostData v).schedule = s.schedule := rfl
@[simp] theorem State.setHostData_hostData (v : Nat) : (s.setHostData v).hostData = v := rfl

end Sys2Proof.Machine
end

