-- ==== Sys2Proof/Laws/Ops.lean ====
section
/-! SUPPORT. One lemma per shared operation: everything it can do when it answers a next state. -/

namespace Sys2Proof.Machine

/-! ## Acceptance (rule R91) -/

@[simp] theorem whenIdle_of_idle {s : State} (h : s.phase = .idle) (accepted : Result) :
    whenIdle s accepted = accepted := by
  simp [whenIdle, h]

@[simp] theorem whenIdle_of_busy {s : State} (h : s.phase ≠ .idle) (accepted : Result) :
    whenIdle s accepted = .refused .commandWhileBusy := by
  simp [whenIdle, h]

/-- What is accepted is accepted in IDLE. -/
theorem whenIdle_next {s t : State} {accepted : Result} (h : whenIdle s accepted = .next t) :
    s.phase = .idle ∧ accepted = .next t := by
  unfold whenIdle at h
  split at h
  · exact ⟨‹_›, h⟩
  · cases h

/-! ## Requests (rules R80, R112) -/

/-- An operand out of range fails. -/
theorem encodeRequest_invalid {a r v : Nat} {w : Bool} (h : argumentInvalid a r v = true) :
    encodeRequest a r v w = none := by
  simp [encodeRequest, h]

/-- A built frame: the operands were in range, and the frame is three bytes with their checksum when
`w` is set. -/
theorem encodeRequest_some {a r v : Nat} {w : Bool} {f : List Byte}
    (h : encodeRequest a r v w = some f) :
    a ≤ 63 ∧ r ≤ 255 ∧ v ≤ 255 ∧
      f = requestHead a r v w ++ (if w then [checksum (requestHead a r v w)] else []) := by
  unfold encodeRequest at h
  split at h
  · cases h
  · rename_i hv
    simp only [argumentInvalid, Config.addrMax, Config.operandMax, Bool.or_eq_true,
      decide_eq_true_eq, not_or, not_lt] at hv
    obtain ⟨⟨ha, hr⟩, hv⟩ := hv
    refine ⟨ha, hr, hv, ?_⟩
    cases w <;> simp at h <;> simp [← h]

/-- A built frame has 4 bytes for a write and 3 for a read (rule R50). -/
theorem encodeRequest_length {a r v : Nat} {w : Bool} {f : List Byte}
    (h : encodeRequest a r v w = some f) : f.length = if w then 4 else 3 := by
  obtain ⟨-, -, -, rfl⟩ := encodeRequest_some h
  cases w <;> simp [requestHead]

/-! ## Transactions (rule R91) -/

/-- A transaction that is accepted: IDLE, the transport open, and the state acceptance leaves. -/
theorem execTransaction_next {op : TransOp} {a r v : Nat} {s t : State}
    (h : execTransaction op a r v s = .next t) :
    s.phase = .idle ∧ s.transportOpen = true ∧ t = s.acceptTransaction op a r v := by
  obtain ⟨hi, h⟩ := whenIdle_next h
  split at h
  · exact ⟨hi, ‹_›, by simpa using h.symm⟩
  · cases h

/-- The two things acceptance can leave. -/
theorem acceptTransaction_cases (op : TransOp) (a r v : Nat) (s : State) :
    (encodeRequest a r v (transWrites op) = none ∧
      s.acceptTransaction op a r v = s.clearForTransaction.raiseTransaction .invalidArgument) ∨
    (∃ f, encodeRequest a r v (transWrites op) = some f ∧
      s.acceptTransaction op a r v = s.clearForTransaction.startTransaction op f) := by
  unfold State.acceptTransaction
  cases h : encodeRequest a r v (transWrites op) with
  | none => exact .inl ⟨rfl, rfl⟩
  | some f => exact .inr ⟨f, rfl, rfl⟩

/-! ## Frames on the line (rule R92) -/

theorem sendFrame_next {f : List Byte} {s t : State} (h : sendFrame f s = .next t) :
    s.phase = .tx ∧ s.txBuf = f ∧ t = s.transmit := by
  unfold sendFrame at h
  split at h
  · rename_i hc
    exact ⟨hc.1, hc.2, by simpa using h.symm⟩
  · cases h

/-! ## The receive buffer (rule R94) -/

/-- `rxFull` is the test `RXLEN = RX_CAP`. -/
theorem rxFull_iff (n : Nat) : rxFull n = true ↔ Config.rxCap = some n := by
  unfold rxFull Config.rxCap
  cases Config.rxCapExcess with
  | none => simp
  | some k =>
    simp only [Option.map_some, Option.some.injEq]
    split <;> simp <;> omega

/-- Below 259 bytes the buffer is never full (rule R5). -/
theorem rxFull_of_lt {n : Nat} (h : n < 259) : rxFull n = false := by
  simp [rxFull, Config.rxCapMin, h]

/-- `RX_CAP` is at least 259 (rule R5). -/
theorem rxCap_ge {cap : Nat} (h : Config.rxCap = some cap) : 259 ≤ cap := by
  unfold Config.rxCap at h
  cases hk : Config.rxCapExcess with
  | none => simp [hk] at h
  | some k => simp [hk, Config.rxCapMin] at h; omega

/-- The durations of rule R5 are positive. -/
theorem durations_pos : 0 < Config.tSettle ∧ 0 < Config.tReadTimeout :=
  ⟨Nat.succ_pos _, Nat.succ_pos _⟩

/-- An environment that delivers for ever brings at least one byte each time. -/
@[simp] theorem endlessDelivery_ne_nil (n : Nat) : Config.endlessDelivery n ≠ [] :=
  List.cons_ne_nil _ _

/-- One step of phase RX: nothing pending, a byte without room, or a byte taken. -/
theorem collect_cases (s : State) :
    (s.rxFifo = [] ∧ s.collect = s.setPhase .check) ∨
    (∃ b rest, s.rxFifo = b :: rest ∧ Config.rxCap = some s.rxBuf.length ∧
      s.collect = s.raiseTransaction .rxOverflow) ∨
    (∃ b rest, s.rxFifo = b :: rest ∧ Config.rxCap ≠ some s.rxBuf.length ∧
      s.collect = s.takeByte b rest) := by
  unfold State.collect
  cases hf : s.rxFifo with
  | nil => exact .inl ⟨rfl, rfl⟩
  | cons b rest =>
    by_cases hr : rxFull s.rxLen = true
    · exact .inr (.inl ⟨b, rest, rfl, (rxFull_iff _).1 hr, by simp [hr]⟩)
    · exact .inr (.inr ⟨b, rest, rfl, fun h => hr ((rxFull_iff _).2 h), by simp [hr]⟩)

/-! ## The judgement (rule R95) -/

/-- Phase CHECK: no validation, no response, a match or a mismatch. -/
theorem check_cases (s : State) :
    (s.opLatch = .transaction .rdnc ∧ s.check = s.completeTransaction) ∨
    (s.opLatch ≠ .transaction .rdnc ∧ s.rxBuf = [] ∧ s.check = s.raiseTransaction .noResponse) ∨
    (∃ rx crc, s.opLatch ≠ .transaction .rdnc ∧ s.rxBuf = rx ++ [crc] ∧ crc = checksum rx ∧
      s.check = (s.setCrcPair crc (checksum rx)).completeTransaction) ∨
    (∃ rx crc, s.opLatch ≠ .transaction .rdnc ∧ s.rxBuf = rx ++ [crc] ∧ crc ≠ checksum rx ∧
      s.check = (s.setCrcPair crc (checksum rx)).raiseTransaction .crcMismatch) := by
  by_cases ho : s.opLatch = .transaction .rdnc
  · exact .inl ⟨ho, by simp [State.check, ho]⟩
  · rcases List.eq_nil_or_concat s.rxBuf with hb | ⟨rx, crc, hb⟩ <;>
      try rw [List.concat_eq_append] at hb
    · exact .inr (.inl ⟨ho, hb, by simp [State.check, State.checkCrc, ho, hb]⟩)
    · by_cases hc : crc = checksum rx
      · exact .inr (.inr (.inl ⟨rx, crc, ho, hb, hc,
          by simp [State.check, State.checkCrc, ho, hb, hc]⟩))
      · exact .inr (.inr (.inr ⟨rx, crc, ho, hb, hc,
          by simp [State.check, State.checkCrc, ho, hb, hc]⟩))

/-! ## One lemma for `exec` -/

/-- Everything an instruction can do when it answers a next state. -/
inductive ExecCase : Instr → State → State → Prop where
  | crcInit {s : State} (hi : s.phase = .idle) :
      ExecCase .crcInit s (s.setCrcAcc Config.crcInit).finishOk
  | crcByte {s : State} {b : Byte} (hi : s.phase = .idle) :
      ExecCase (.crcByte b) s (s.setCrcAcc (crcByte s.crcAcc b)).finishOk
  | encInvalid {s : State} {a r v : Nat} {w : Bool} (hi : s.phase = .idle)
      (hf : encodeRequest a r v w = none) :
      ExecCase (.enc a r v w) s (s.raiseEnc .invalidArgument)
  | encBuilt {s : State} {a r v : Nat} {w : Bool} {f : List Byte} (hi : s.phase = .idle)
      (hf : encodeRequest a r v w = some f) :
      ExecCase (.enc a r v w) s (s.setTxBuf f).finishOk
  | dec {s : State} {b : Byte} (hi : s.phase = .idle) :
      ExecCase (.dec b) s (s.setDec (blkField b) (addrField b) (wrField b)).finishOk
  | rd {s : State} {a r n : Nat} (hi : s.phase = .idle) (ht : s.transportOpen = true) :
      ExecCase (.rd a r n) s (s.acceptTransaction .rd a r n)
  | rdnc {s : State} {a r n : Nat} (hi : s.phase = .idle) (ht : s.transportOpen = true) :
      ExecCase (.rdnc a r n) s (s.acceptTransaction .rdnc a r n)
  | wr {s : State} {a r v : Nat} (hi : s.phase = .idle) (ht : s.transportOpen = true) :
      ExecCase (.wr a r v) s (s.acceptTransaction .wr a r v)
  | frameRdReq {s : State} {a : BitVec 6} {r n : Byte} (hp : s.phase = .tx)
      (hf : s.txBuf = [joinAddr false a false, r, n]) :
      ExecCase (.frameRdReq a r n) s s.transmit
  | frameWrReq {s : State} {a : BitVec 6} {r v c : Byte} (hp : s.phase = .tx)
      (hf : s.txBuf = [joinAddr false a true, r, v, c]) :
      ExecCase (.frameWrReq a r v c) s s.transmit
  | frameRsp {s : State} {e0 e1 e2 c : Byte} {payload : List Byte} :
      ExecCase (.frameRsp e0 e1 e2 payload c) s (s.deliver (e0 :: e1 :: e2 :: (payload ++ [c])))

/-- The inversion of `exec`. -/
theorem exec_next_cases {i : Instr} {s t : State} (h : exec i s = .next t) : ExecCase i s t := by
  cases i with
  | crcInit =>
    obtain ⟨hi, h⟩ := whenIdle_next h
    cases h; exact .crcInit hi
  | crcByte b =>
    obtain ⟨hi, h⟩ := whenIdle_next h
    cases h; exact .crcByte hi
  | enc a r v w =>
    obtain ⟨hi, h⟩ := whenIdle_next h
    cases hf : encodeRequest a r v w with
    | none => simp [hf] at h; subst h; exact .encInvalid hi hf
    | some f => simp [hf] at h; subst h; exact .encBuilt hi hf
  | dec b =>
    obtain ⟨hi, h⟩ := whenIdle_next h
    cases h; exact .dec hi
  | rd a r n =>
    obtain ⟨hi, ht, rfl⟩ := execTransaction_next h
    exact .rd hi ht
  | rdnc a r n =>
    obtain ⟨hi, ht, rfl⟩ := execTransaction_next h
    exact .rdnc hi ht
  | wr a r v =>
    obtain ⟨hi, ht, rfl⟩ := execTransaction_next h
    exact .wr hi ht
  | frameRdReq a r n =>
    obtain ⟨hp, hf, rfl⟩ := sendFrame_next h
    exact .frameRdReq hp hf
  | frameWrReq a r v c =>
    obtain ⟨hp, hf, rfl⟩ := sendFrame_next h
    exact .frameWrReq hp hf
  | frameRsp e0 e1 e2 payload c =>
    cases h; exact .frameRsp

end Sys2Proof.Machine
end

