-- ==== Sys2Proof/Laws/PerInstr.lean ====
section
/-! SUPPORT. Statements made per instruction. `SelectsOwnRow`: the encoding of an instruction lies in the
row of spec/opcode_table.json that it stands for (rules R50, R52, R55). -/

namespace Sys2Proof.Laws

open Sys2Proof.Machine

/-- The pattern is a command word that selects the row (rule R55). -/
def commandIn (row : Row) (p : Pattern) : Prop := ∃ c, p = .command c ∧ row.selects c = true

/-- The pattern is a request of `len` bytes whose first byte has `BLK` and `WR` as the table's mask
0x81 asks (rule R50). -/
def requestIn (len : Nat) (first : Byte) (p : Pattern) : Prop :=
  ∃ b0 rest, p = .request (b0 :: rest) ∧ rest.length + 1 = len ∧ b0 &&& 0x81 = first

/-- The pattern is a response of at least echo and CRC (rule R52). -/
def responseIn (p : Pattern) : Prop := ∃ bytes, p = .response bytes ∧ 4 ≤ bytes.length

def SelectsOwnRow.Statement (i : Instr) : Prop :=
  match i with
  | .crcInit => commandIn rowCrcInit (encode i)
  | .crcByte _ => commandIn rowCrcByte (encode i)
  | .enc _ _ _ _ => commandIn rowEnc (encode i)
  | .dec _ => commandIn rowDec (encode i)
  | .rd _ _ _ => commandIn rowRd (encode i)
  | .rdnc _ _ _ => commandIn rowRdnc (encode i)
  | .wr _ _ _ => commandIn rowWr (encode i)
  | .frameRdReq _ _ _ => requestIn 3 0x00 (encode i)
  | .frameWrReq _ _ _ _ => requestIn 4 0x01 (encode i)
  | .frameRsp _ _ _ _ _ => responseIn (encode i)

theorem SelectsOwnRow.crcInit : SelectsOwnRow.Statement .crcInit :=
  ⟨_, rfl, by decide⟩

theorem SelectsOwnRow.crcByte (b : Byte) : SelectsOwnRow.Statement (.crcByte b) :=
  ⟨_, rfl, by simp [selects_crcByte_iff]⟩

theorem SelectsOwnRow.enc (a r v : Nat) (w : Bool) : SelectsOwnRow.Statement (.enc a r v w) :=
  ⟨_, rfl, by simp [selects_enc_iff]⟩

theorem SelectsOwnRow.dec (b : Byte) : SelectsOwnRow.Statement (.dec b) :=
  ⟨_, rfl, by simp [selects_dec_iff]⟩

theorem SelectsOwnRow.rd (a r n : Nat) : SelectsOwnRow.Statement (.rd a r n) :=
  ⟨_, rfl, by simp [selects_rd_iff]⟩

theorem SelectsOwnRow.rdnc (a r n : Nat) : SelectsOwnRow.Statement (.rdnc a r n) :=
  ⟨_, rfl, by simp [selects_rdnc_iff]⟩

theorem SelectsOwnRow.wr (a r v : Nat) : SelectsOwnRow.Statement (.wr a r v) :=
  ⟨_, rfl, by simp [selects_wr_iff]⟩

/-- The bits of the table's mask 0x81 in an address byte with `BLK = 0`. -/
theorem joinAddr_and_mask : ∀ (a : BitVec 6) (wr : Bool),
    joinAddr false a wr &&& 0x81 = (if wr then 0x01 else 0x00) := by decide

theorem SelectsOwnRow.frameRdReq (a : BitVec 6) (r n : Byte) :
    SelectsOwnRow.Statement (.frameRdReq a r n) :=
  ⟨_, _, rfl, rfl, joinAddr_and_mask a false⟩

theorem SelectsOwnRow.frameWrReq (a : BitVec 6) (r v c : Byte) :
    SelectsOwnRow.Statement (.frameWrReq a r v c) :=
  ⟨_, _, rfl, rfl, joinAddr_and_mask a true⟩

theorem SelectsOwnRow.frameRsp (e0 e1 e2 : Byte) (payload : List Byte) (c : Byte) :
    SelectsOwnRow.Statement (.frameRsp e0 e1 e2 payload c) :=
  ⟨_, rfl, by simp⟩

end Sys2Proof.Laws
end

