-- ==== Sys2Proof/Laws/Step.lean ====
section
/-! SUPPORT. What one step can do, said once (`step_next_cases`), and the small equations of the step. -/

namespace Sys2Proof.Machine

/-! ## The block's step (rules R91 to R95) -/

/-- A request that decodes is the frame it decodes to: running it in phase TX is the transmission. -/
theorem exec_of_txBuf {s : State} {i : Instr} (hp : s.phase = .tx)
    (h : decodeRequest s.txBuf = .ok i) : exec i s = .next s.transmit := by
  rcases decodeRequest_ok h with ⟨a, r, n, rfl, hb⟩ | ⟨a, r, v, c, rfl, hb⟩
  · simp [exec, execFrameRdReq, sendFrame, hp, hb]
  · simp [exec, execFrameWrReq, sendFrame, hp, hb]

/-- What the block's step does in each phase. -/
inductive BlockCase : State → State → Prop where
  | idle {s : State} (hp : s.phase = .idle) : BlockCase s s
  | tx {s : State} (hp : s.phase = .tx) : BlockCase s s.transmit
  | settle {s : State} (hp : s.phase = .settle) : BlockCase s (s.setPhase .rx)
  | rx {s : State} (hp : s.phase = .rx) : BlockCase s s.collect
  | check {s : State} (hp : s.phase = .check) : BlockCase s s.check

/-- The block's step always answers a next state. -/
theorem blockStep_total (s : State) : ∃ t, blockStep s = .next t ∧ BlockCase s t := by
  unfold blockStep
  cases hp : s.phase with
  | idle => exact ⟨s, rfl, .idle hp⟩
  | tx =>
    refine ⟨s.transmit, ?_, .tx hp⟩
    cases hd : decodeRequest s.txBuf with
    | ok i => exact exec_of_txBuf hp hd
    | error _ => rfl
  | settle => exact ⟨_, rfl, .settle hp⟩
  | rx => exact ⟨_, rfl, .rx hp⟩
  | check => exact ⟨_, rfl, .check hp⟩

theorem blockStep_next_cases {s t : State} (h : blockStep s = .next t) : BlockCase s t := by
  obtain ⟨u, hu, hc⟩ := blockStep_total s
  rw [hu] at h
  cases h
  exact hc

/-! ## Deliveries (rule R23) -/

/-- A delivery appends its bytes, whether or not they are a whole response. -/
theorem deliverBytes_eq (bytes : List Byte) (s : State) :
    deliverBytes bytes s = .next (s.deliver bytes) := by
  unfold deliverBytes
  cases hd : decodeResponse bytes with
  | ok i =>
    obtain ⟨e0, e1, e2, payload, c, rfl, rfl⟩ := decodeResponse_ok hd
    rfl
  | error _ => rfl

/-! ## The whole step -/

/-- Everything one step can do when it answers a next state. -/
inductive StepCase : State → State → Prop where
  | own {s t : State} (hs : s.schedule = []) (hb : BlockCase s t) : StepCase s t
  | block {s t : State} {rest : List Event} (hs : s.schedule = .block :: rest)
      (hb : BlockCase (s.withSchedule rest) t) : StepCase s t
  | command {s t : State} {c : Word} {i : Instr} {rest : List Event}
      (hs : s.schedule = .hostWrite 0x00 c :: rest) (hd : decodeCommand c = .ok i)
      (he : ExecCase i (s.withSchedule rest) t) : StepCase s t
  | illegal {s : State} {c : Word} {e : DecodeError} {rest : List Event}
      (hs : s.schedule = .hostWrite 0x00 c :: rest) (hd : decodeCommand c = .error e)
      (hi : s.phase = .idle) : StepCase s ((s.withSchedule rest).raiseWord .illegalCommand)
  | ignored {s : State} {n : Nat} {c : Word} {rest : List Event}
      (hs : s.schedule = .hostWrite n c :: rest) (hn : n ≠ 0x00) :
      StepCase s (s.withSchedule rest)
  | read {s : State} {n v : Nat} {rest : List Event} (hs : s.schedule = .hostRead n :: rest)
      (hv : s.readRegister n = some v) : StepCase s ((s.withSchedule rest).setHostData v)
  | waited {s : State} {rest : List Event} (hs : s.schedule = .hostWait :: rest)
      (hd : s.done = true) : StepCase s ((s.withSchedule rest).setHostData s.status.toNat)
  | waiting {s t : State} {rest : List Event} (hs : s.schedule = .hostWait :: rest)
      (hd : s.done = false) (hb : BlockCase s t) : StepCase s t
  | deliver {s : State} {bytes : List Byte} {rest : List Event}
      (hs : s.schedule = .deliver bytes :: rest) :
      StepCase s ((s.withSchedule rest).deliver bytes)
  | deliverForever {s : State} {n : Nat} {rest : List Event}
      (hs : s.schedule = .deliverForever n :: rest) :
      StepCase s ((s.withSchedule (.block :: .deliverForever (n + 1) :: rest)).deliver
        (Config.endlessDelivery n))
  | reset {s : State} {sent : Nat} {rest : List Event} (hs : s.schedule = .reset sent :: rest) :
      StepCase s ((s.withSchedule rest).resetBlock sent)
  | opened {s : State} {rest : List Event} (hs : s.schedule = .openTransport true :: rest) :
      StepCase s (s.withSchedule rest).openTransport

/-- The inversion of `step`. -/
theorem step_next_cases {s t : State} (h : step s = .next t) : StepCase s t := by
  unfold step at h
  cases hs : s.schedule with
  | nil => rw [hs] at h; exact .own hs (blockStep_next_cases h)
  | cons e rest =>
    rw [hs] at h
    cases e with
    | block => exact .block hs (blockStep_next_cases h)
    | hostWrite n c =>
      simp only [moveEvent, hostWrite] at h
      split at h
      · rename_i hn
        subst hn
        unfold presentCommand at h
        cases hd : decodeCommand c with
        | ok i => rw [hd] at h; exact .command hs hd (exec_next_cases h)
        | error e =>
          rw [hd] at h
          obtain ⟨hi, h⟩ := whenIdle_next h
          cases h
          exact .illegal hs hd hi
      · cases h; exact .ignored hs ‹_›
    | hostRead n =>
      simp only [moveEvent, hostRead] at h
      cases hv : (s.withSchedule rest).readRegister n with
      | none => rw [hv] at h; cases h
      | some v => rw [hv] at h; cases h; exact .read hs hv
    | hostWait =>
      simp only [moveEvent] at h
      split at h
      · cases h; exact .waited hs ‹_›
      · rename_i hd
        exact .waiting hs (by simpa using hd) (blockStep_next_cases h)
    | deliver bytes =>
      simp only [moveEvent, deliverBytes_eq] at h
      cases h; exact .deliver hs
    | deliverForever n => cases h; exact .deliverForever hs
    | reset sent => cases h; exact .reset hs
    | openTransport opened =>
      cases opened with
      | true => cases h; exact .opened hs
      | false => cases h

/-! ## The end of a run (rule R156) -/

/-- A run that is over stays over, whatever is delivered or read after it, but for the reset input, which
gives no `DONE` (rule R130). -/
theorem runOver_of_step {s t : State} (ho : s.runOver) (h : step s = .next t)
    (hr : ∀ sent rest, s.schedule ≠ .reset sent :: rest) : t.runOver := by
  obtain ⟨hc, hd, hp⟩ := ho
  have tail : ∀ {e : Event} {rest : List Event}, s.schedule = e :: rest →
      ∀ x ∈ rest, presentsCommand x = false :=
    fun hs x hx => hc x (by rw [hs]; exact .tail _ hx)
  have idle : ∀ {u v : State}, u.phase = .idle → BlockCase u v → v = u := by
    intro u v hu hb
    cases hb with
    | idle => rfl
    | tx h => rw [hu] at h; cases h
    | settle h => rw [hu] at h; cases h
    | rx h => rw [hu] at h; cases h
    | check h => rw [hu] at h; cases h
  cases step_next_cases h with
  | own hs hb => rw [idle hp hb]; exact ⟨hc, hd, hp⟩
  | @block _ rest hs hb =>
    rw [idle (u := s.withSchedule rest) hp hb]
    exact ⟨tail hs, hd, hp⟩
  | command hs _ _ => exact absurd (hc _ (by rw [hs]; exact .head _)) (by simp [presentsCommand])
  | illegal hs _ _ => exact absurd (hc _ (by rw [hs]; exact .head _)) (by simp [presentsCommand])
  | ignored hs _ => exact ⟨tail hs, hd, hp⟩
  | read hs _ => exact ⟨tail hs, hd, hp⟩
  | waited hs _ => exact ⟨tail hs, hd, hp⟩
  | waiting _ h0 _ => rw [hd] at h0; cases h0
  | deliver hs => exact ⟨tail hs, hd, hp⟩
  | deliverForever hs =>
    refine ⟨fun x hx => ?_, hd, hp⟩
    rcases List.mem_cons.1 hx with rfl | hx
    · rfl
    · rcases List.mem_cons.1 hx with rfl | hx
      · rfl
      · exact tail hs x hx
  | reset hs => exact absurd hs (hr _ _)
  | opened hs => exact ⟨tail hs, hd, hp⟩

/-! ## Runs -/

/-- The host's run of any machine, one step unrolled (Host/Core.lean). -/
theorem core_run_succ (M : Host.Core) (k : Nat) (x : M.State) :
    (∀ y, M.step x = .next y → M.run (k + 1) x = M.run k y) ∧
    (∀ r, M.step x = .fault r → M.run (k + 1) x = .fault r) ∧
    (∀ r, M.step x = .refused r → M.run (k + 1) x = .refused r) := by
  refine ⟨?_, ?_, ?_⟩ <;> intro y h <;> simp [Host.Core.run, h]

/-- A run of `k` steps is the host's run of the machine. -/
theorem runSteps_eq_core_run (k : Nat) (s : State) :
    runSteps k s = Host.Core.run Sys2Proof.core k s := by
  induction k generalizing s with
  | zero => rfl
  | succ k ih =>
    obtain ⟨hn, hf, hr⟩ := core_run_succ Sys2Proof.core k s
    rw [runSteps]
    cases h : step s with
    | next t => exact (ih t).trans (hn t h).symm
    | fault r => exact (hf r h).symm
    | refused r => exact (hr r h).symm

@[simp] theorem runSteps_zero (s : State) : runSteps 0 s = .next s := rfl

theorem runSteps_succ_of_step {s t : State} (h : step s = .next t) (k : Nat) :
    runSteps (k + 1) s = runSteps k t := by
  simp [runSteps, h]

/-- Two runs, one after the other. -/
theorem runSteps_add {s t : State} {j : Nat} (h : runSteps j s = .next t) (k : Nat) :
    runSteps (j + k) s = runSteps k t := by
  induction j generalizing s with
  | zero => cases h; simp
  | succ j ih =>
    rw [Nat.succ_add]
    cases hs : step s with
    | next u =>
      rw [runSteps_succ_of_step hs] at h ⊢
      exact ih h
    | fault r => simp [runSteps, hs] at h
    | refused r => simp [runSteps, hs] at h

/-- Two steps under an environment that delivers for ever: its delivery, then the block's move. -/
theorem runSteps_two_of_deliverForever {s t : State} {n : Nat} {rest : List Event}
    (hs : s.schedule = .deliverForever n :: rest)
    (hb : blockStep ((s.withSchedule (.deliverForever (n + 1) :: rest)).deliver
      (Config.endlessDelivery n)) = .next t) :
    runSteps 2 s = .next t := by
  have h1 : step s = .next ((s.withSchedule (.block :: .deliverForever (n + 1) :: rest)).deliver
      (Config.endlessDelivery n)) := by
    rw [step, hs]; rfl
  have h2 : step ((s.withSchedule (.block :: .deliverForever (n + 1) :: rest)).deliver
      (Config.endlessDelivery n)) = .next t := hb
  rw [runSteps_succ_of_step h1, runSteps_succ_of_step h2, runSteps_zero]

end Sys2Proof.Machine
end

