-- ==== Sys2Proof/Tests/Slice0.lean ====
section
/-! SUPPORT. Tests on fixed values and the witnesses of the obligations' hypotheses. Every expected value
comes from spec/95_test_vectors.md (V.., P.., E..) or from the rule a comment names. -/

namespace Sys2Proof.Machine.Tests

open Sys2Proof Sys2Proof.Machine

/-! ## Helpers -/

/-- The state after a step, where there is one. -/
def nextOf : Result → Option State
  | .next s => some s
  | .fault _ => none
  | .refused _ => none

/-- The refusal of a step, where it is refused. -/
def refusalOf : Result → Option Refusal
  | .next _ => none
  | .fault _ => none
  | .refused r => some r

/-- A state in phase CHECK of a transaction that collected `rx`. -/
def checkState (op : TransOp) (rx : List Byte) : State :=
  { State.reset with phase := .check, opLatch := .transaction op, rxBuf := rx, txBuf := [0, 0, 0] }

/-- A state about to transmit `f`. -/
def txState (op : TransOp) (f : List Byte) : State :=
  { State.reset with phase := .tx, opLatch := .transaction op, txBuf := f }

/-- A state in phase RX with `fifo` pending. -/
def rxState (fifo : List Byte) : State :=
  { State.reset with phase := .rx, opLatch := .transaction .rd, txBuf := [0, 0, 0], rxFifo := fifo }

/-- The reset state with these events scheduled. -/
def withEvents (es : List Event) : State := State.reset.withSchedule es

/-! ## WellFormed refuses an ill-formed term of each check (rules R8, R54, R50, R52) -/

theorem test_wf_enc_address : (Instr.enc 256 0 0 false).wellFormed = false := by decide
theorem test_wf_enc_register : (Instr.enc 0 256 0 false).wellFormed = false := by decide
theorem test_wf_enc_value : (Instr.enc 0 0 256 true).wellFormed = false := by decide
theorem test_wf_rd_address : (Instr.rd 256 0 0).wellFormed = false := by decide
theorem test_wf_rd_register : (Instr.rd 0 256 0).wellFormed = false := by decide
theorem test_wf_rd_count : (Instr.rd 0 0 256).wellFormed = false := by decide
theorem test_wf_rdnc_address : (Instr.rdnc 256 0 0).wellFormed = false := by decide
theorem test_wf_rdnc_register : (Instr.rdnc 0 256 0).wellFormed = false := by decide
theorem test_wf_rdnc_count : (Instr.rdnc 0 0 256).wellFormed = false := by decide
theorem test_wf_wr_address : (Instr.wr 256 0 0).wellFormed = false := by decide
theorem test_wf_wr_register : (Instr.wr 0 256 0).wellFormed = false := by decide
theorem test_wf_wr_value : (Instr.wr 0 0 256).wellFormed = false := by decide
-- V36: the CRC byte of 7F 32 00 is F3.
theorem test_wf_wrreq_crc : (Instr.frameWrReq 63 0x32 0x00 0xF2).wellFormed = false := by decide +kernel
-- E7: the trailing 00 does not match.
theorem test_wf_rsp_crc :
    (Instr.frameRsp 0x02 0x01 0x04 [0xAA, 0xBB, 0xCC, 0xDD] 0x00).wellFormed = false := by decide +kernel
-- Rule R52: a payload of at most 255 bytes; zero bytes have checksum 00 (rule R75 law 3).
theorem test_wf_rsp_length :
    (Instr.frameRsp 0 0 0 (List.replicate 256 0) 0).wellFormed = false := by decide +kernel
theorem test_wf_accepts_illegal_address : (Instr.rd 64 0 0).wellFormed = true := by decide

/-! ## Decoding: words written out from the encodings (rules R54, R55, R50, R52) -/

theorem test_decode_crc_init :
    decodeCommand 0b0000_0000_00000000_00000000_00000000 = .ok .crcInit := by decide
theorem test_decode_crc_byte :
    decodeCommand 0b0001_0000_00000000_00000000_00110001 = .ok (.crcByte 0x31) := by decide
theorem test_decode_enc :
    decodeCommand 0b0010_0001_00111111_00110010_00000000 = .ok (.enc 63 0x32 0 true) := by decide
theorem test_decode_enc_read :
    decodeCommand 0b0010_0000_00000001_00000001_00000100 = .ok (.enc 1 1 4 false) := by decide
theorem test_decode_dec :
    decodeCommand 0b0011_0000_00000000_00000000_01111111 = .ok (.dec 0x7F) := by decide
theorem test_decode_rd :
    decodeCommand 0b0100_0000_00000001_00100000_00000100 = .ok (.rd 1 0x20 4) := by decide
theorem test_decode_rdnc :
    decodeCommand 0b0101_0000_00000000_00000000_00000001 = .ok (.rdnc 0 0 1) := by decide
theorem test_decode_wr :
    decodeCommand 0b0110_0000_00111111_00110010_00000000 = .ok (.wr 63 0x32 0) := by decide
-- V33: RD 1, 0x20, 4 sends 02 20 04.
theorem test_decode_rdreq :
    decodeRequest [0b0_000001_0, 0b00100000, 0b00000100] = .ok (.frameRdReq 1 0x20 4) := by decide
-- V36.
theorem test_decode_wrreq :
    decodeRequest [0b0_111111_1, 0b00110010, 0b00000000, 0b11110011] =
      .ok (.frameWrReq 63 0x32 0 0xF3) := by decide
-- V59: payload 01 02 04 08 at indices 3 to 6, CRC A1.
theorem test_decode_rsp :
    decodeResponse [0x02, 0x20, 0x04, 0x01, 0x02, 0x04, 0x08, 0xA1] =
      .ok (.frameRsp 0x02 0x20 0x04 [0x01, 0x02, 0x04, 0x08] 0xA1) := by decide

-- Rule R57, V83: OP = 7.
theorem test_reject_opcode : decodeCommand 0x70000000 = .error (.reservedOpcode 7) := by decide
-- V84: RD with the W bit set; P8: ENC with RSV not zero; V85: CRC.BYTE with R not zero.
theorem test_reject_w : decodeCommand 0x41010104 = .error (.mustBeZero 4) := by decide
theorem test_reject_rsv : decodeCommand 0x22000000 = .error (.mustBeZero 2) := by decide
theorem test_reject_r : decodeCommand 0x10000131 = .error (.mustBeZero 1) := by decide
-- P8: CRC.INIT with V not zero.
theorem test_reject_v : decodeCommand 0x00000001 = .error (.mustBeZero 0) := by decide
-- U2: BLK set. Rules R50, R53: lengths.
theorem test_reject_blk : decodeRequest [0x80, 0, 0] = .error .blkSet := by decide
theorem test_reject_wr_length : decodeRequest [0x01, 0, 0] = .error .writeBitLength := by decide
theorem test_reject_request_length : decodeRequest [0x00, 0] = .error (.requestLength 2) := by decide
theorem test_reject_short_response : decodeResponse [0, 0, 0] = .error (.shortResponse 3) := by decide

/-! ## The table's numbering (log 3), and the next step after reset (log 18) -/

theorem test_table_rdreq : decodeTableWord 24 0x022004 = some (.frameRdReq 1 0x20 4) := by decide
theorem test_table_wrreq : decodeTableWord 32 0x7F3200F3 = some (.frameWrReq 63 0x32 0 0xF3) := by
  decide
theorem test_table_command : decodeTableWord 32 0x40012004 = some (.rd 1 0x20 4) := by decide
theorem test_table_rsp :
    decodeTableWord 64 0x02200401020408A1 =
      some (.frameRsp 0x02 0x20 0x04 [0x01, 0x02, 0x04, 0x08] 0xA1) := by decide
theorem test_table_rsp_no_bits : decodeTableWord 0 0 = some (.frameRsp 0 0 0 [] 0) := by decide
theorem test_table_reject : decodeTableWord 32 0xF0000000 = none := by decide

theorem test_fetch_command :
    step (State.reset.withFetchWord 32 0x10000031) =
      exec (.crcByte 0x31) State.reset := by rfl
-- Rule R92: the placed frame goes out.
theorem test_fetch_wrreq :
    (nextOf (step (State.reset.withFetchWord 32 0x7F3200F3))).map State.lineTx =
      some [0x7F, 0x32, 0x00, 0xF3] := by decide
theorem test_fetch_rdreq :
    (nextOf (step (State.reset.withFetchWord 24 0x022004))).map (fun t => (t.lineTx, t.phase)) =
      some ([0x02, 0x20, 0x04], .settle) := by decide
theorem test_fetch_rsp :
    (nextOf (step (State.reset.withFetchWord 40 0x0000014647))).map State.rxFifo =
      some [0x00, 0x00, 0x01, 0x46, 0x47] := by decide

/-! ## The CRC functions (95_test_vectors.md section 2) -/

-- V14 and its accumulator after the first byte; section 2.2, rows 2 and 3.
theorem test_checksum_digits :
    checksum [0x31, 0x32, 0x33, 0x34, 0x35, 0x36, 0x37, 0x38, 0x39] = 0xF4 := by decide +kernel
theorem test_crc_byte_80 : crcByte 0x00 0x80 = 0x89 := by decide
theorem test_crc_byte_07_02 : crcByte 0x07 0x02 = 0x1B := by decide
-- V13, V15, V22.
theorem test_checksum_ffff : checksum [0xFF, 0xFF] = 0x24 := by decide +kernel
theorem test_checksum_e7 : checksum [0x02, 0x01, 0x04, 0xAA, 0xBB, 0xCC, 0xDD] = 0x76 := by decide +kernel
theorem test_checksum_033305 : checksum [0x03, 0x33, 0x05] = 0x60 := by decide +kernel
-- V51, V55, V62, V63.
theorem test_crc_ok_one_byte : crcOk [0x01] = false := by decide
theorem test_crc_ok_prefix : crcPair [0x02, 0x20, 0x04, 0x00, 0x00] = some (0x00, 0x3B) := by decide +kernel
theorem test_crc_ok_two_frames :
    crcOk [0x02, 0x20, 0x04, 0x00, 0x00, 0x00, 0x00, 0x0D, 0x03, 0x32, 0x02, 0x60] = true := by decide +kernel
theorem test_crc_pair_tail :
    crcPair [0x00, 0x00, 0x0D, 0x03, 0x32, 0x02, 0x60] = some (0x60, 0x9E) := by decide +kernel

/-! ## The codec (95_test_vectors.md section 3) -/

-- V37, V38, V43, V44, V46, V47.
theorem test_encode_write : encodeRequest 63 0xFF 0xFF true = some [0x7F, 0xFF, 0xFF, 0x04] := by decide +kernel
theorem test_encode_read : encodeRequest 63 0xFF 0xFF false = some [0x7E, 0xFF, 0xFF] := by decide
theorem test_encode_62 : encodeRequest 62 0x32 0x3F true = some [0x7D, 0x32, 0x3F, 0x98] := by decide +kernel
theorem test_encode_address : encodeRequest 64 0 0 false = none := by decide
theorem test_encode_register : encodeRequest 1 256 0 false = none := by decide
theorem test_encode_value : encodeRequest 1 0 256 true = none := by decide
-- Section 3.2.
theorem test_decode_addr_7d : decodeAddr 0x7D = (false, 62, true) := by decide
theorem test_decode_addr_fe : decodeAddr 0xFE = (true, 63, false) := by decide
-- V59, rule R85, rule R37.
theorem test_parse_response :
    parseResponse [0x02, 0x20, 0x04, 0x01, 0x02, 0x04, 0x08, 0xA1] =
      some { echo := [0x02, 0x20, 0x04], payload := [0x01, 0x02, 0x04, 0x08], crc := 0xA1 } := by decide
theorem test_be16 : be16 [0x2E, 0xE0] 0 = some 0x2EE0 := by decide

/-! ## One step of each instruction -/

-- P1: from 00, byte 31 gives 97; CRC.INIT gives 00; STATUS = 0x02.
theorem test_crc_byte_step :
    (nextOf (exec (.crcByte 0x31) State.reset)).map (fun t => (t.crcAcc, t.status)) =
      some (0x97, 0x02) := by decide
theorem test_crc_init_step :
    (nextOf (exec .crcInit { State.reset with crcAcc := 0x97, code := .noResponse })).map
      (fun t => (t.crcAcc, t.status)) = some (0x00, 0x02) := by decide
-- P2.
theorem test_enc_step :
    (nextOf (exec (.enc 63 0x32 0 true) State.reset)).map (fun t => (t.txBuf, t.lineTx, t.status)) =
      some ([0x7F, 0x32, 0x00, 0xF3], [], 0x02) := by decide +kernel
theorem test_enc_invalid_step :
    (nextOf (exec (.enc 64 0x32 0 true) { State.reset with txBuf := [1, 2, 3] })).map
      (fun t => (t.txLen, t.status)) = some (0, 0x22) := by decide
theorem test_dec_step :
    (nextOf (exec (.dec 0x7F) State.reset)).map (fun t => (t.decBlk, t.decAddr, t.decWr)) =
      some (false, 63, true) := by decide
theorem test_dec_blk_step :
    (nextOf (exec (.dec 0x80) State.reset)).map (fun t => (t.decByte, t.status)) =
      some (0x80, 0x02) := by decide
-- P3, first line; V79.
theorem test_rd_step :
    (nextOf (exec (.rd 1 0x20 4) State.reset)).map (fun t => (t.txBuf, t.phase, t.status)) =
      some ([0x02, 0x20, 0x04], .tx, 0x01) := by decide
theorem test_rd_invalid_step :
    (nextOf (exec (.rd 64 0 0) { State.reset with crcRx := 7, txBuf := [1, 2, 3], rxValid := true })).map
      (fun t => (t.txLen, t.crcRx, t.phase, t.status)) = some (0, 0x00, .idle, 0x22) := by decide
-- P6; rule R112 for RDNC.
theorem test_rdnc_step :
    (nextOf (exec (.rdnc 0 0 1) State.reset)).map (fun t => (t.txBuf, latchNumber t.opLatch)) =
      some ([0x00, 0x00, 0x01], 5) := by decide
theorem test_rdnc_invalid_step :
    (nextOf (exec (.rdnc 255 0 1) State.reset)).map State.status = some 0x22 := by decide
-- V75, V47.
theorem test_wr_step :
    (nextOf (exec (.wr 63 0x32 0) State.reset)).map (fun t => (t.txBuf, latchNumber t.opLatch)) =
      some ([0x7F, 0x32, 0x00, 0xF3], 6) := by decide +kernel
theorem test_wr_invalid_step :
    (nextOf (exec (.wr 1 0 256) State.reset)).map State.status = some 0x22 := by decide
-- Rule R92; rule R124: no other frame goes out.
theorem test_frame_rdreq_step :
    (nextOf (exec (.frameRdReq 1 0x20 4) (txState .rd [0x02, 0x20, 0x04]))).map State.lineTx =
      some [0x02, 0x20, 0x04] := by decide
theorem test_frame_rdreq_refused :
    refusalOf (exec (.frameRdReq 1 0x20 4) (txState .rd [0x02, 0x20, 0x05])) =
      some .frameNotInTransmission := by decide
theorem test_frame_wrreq_step :
    (nextOf (exec (.frameWrReq 63 0x32 0 0xF3) (txState .wr [0x7F, 0x32, 0x00, 0xF3]))).map
      State.lineTx = some [0x7F, 0x32, 0x00, 0xF3] := by decide
theorem test_frame_wrreq_refused :
    refusalOf (exec (.frameWrReq 63 0x32 0 0xF3) State.reset) = some .frameNotInTransmission := by
  decide
-- Rule R23: behind what is pending already.
theorem test_frame_rsp_step :
    (nextOf (exec (.frameRsp 0 0 1 [0x55] 0xB9) (rxState [0x0D]))).map State.rxFifo =
      some [0x0D, 0x00, 0x00, 0x01, 0x55, 0xB9] := by decide

/-! ## The phases and the faults, one step each -/

-- P3: SETTLE to RX, RX takes the oldest byte, RX with nothing pending goes to CHECK.
theorem test_settle_step :
    (nextOf (blockStep { State.reset with phase := .settle })).map State.phase = some .rx := by decide
theorem test_rx_step :
    (nextOf (blockStep (rxState [0x02, 0x20]))).map (fun t => (t.rxBuf, t.rxFifo, t.phase)) =
      some ([0x02], [0x20], .rx) := by decide
theorem test_rx_empty_step :
    (nextOf (blockStep (rxState []))).map State.phase = some .check := by decide
-- V71, V70, V72, V73, V81, V82.
theorem test_check_mismatch :
    (nextOf (blockStep (checkState .rd [0x02, 0x01, 0x04, 0xAA, 0xBB, 0xCC, 0xDD, 0x00]))).map
      (fun t => (t.status, t.rxLen, t.crcRx, t.crcCalc)) = some (0x12, 0, 0x00, 0x76) := by decide +kernel
theorem test_check_match :
    (nextOf (blockStep (checkState .rd [0x02, 0x20, 0x04, 0x00, 0x00, 0x00, 0x00, 0x0D]))).map
      (fun t => (t.status, t.rxLen, t.crcRx, t.crcCalc)) = some (0x06, 8, 0x0D, 0x0D) := by decide +kernel
theorem test_check_no_response :
    (nextOf (blockStep (checkState .wr []))).map (fun t => (t.status, t.rxLen)) =
      some (0x32, 0) := by decide
theorem test_check_rdnc :
    (nextOf (blockStep (checkState .rdnc [0x02, 0x01, 0x04, 0xAA, 0xBB, 0xCC, 0xDD, 0x00]))).map
      (fun t => (t.status, t.rxLen, t.crcRx, t.crcCalc)) = some (0x06, 8, 0x00, 0x00) := by decide
theorem test_check_rdnc_empty :
    (nextOf (blockStep (checkState .rdnc []))).map (fun t => (t.status, t.rxLen)) =
      some (0x06, 0) := by decide
theorem test_check_one_zero :
    (nextOf (blockStep (checkState .rd [0x00]))).map (fun t => (t.status, t.rxLen)) =
      some (0x06, 1) := by decide
theorem test_check_one_byte :
    (nextOf (blockStep (checkState .rd [0x0D]))).map (fun t => (t.status, t.crcRx, t.crcCalc)) =
      some (0x12, 0x0D, 0x00) := by decide
-- Rule R102: after the delivery and the block's look the transaction is still in RX, with a byte taken.
theorem test_endless_rx :
    (nextOf (runSteps 2 { rxState [0x0D] with schedule := [.deliverForever 0] })).map
      (fun t => (t.phase, t.rxBuf, t.schedule)) = some (.rx, [0x0D], [.deliverForever 1]) := by rfl
-- V83: only STATUS changes.
theorem test_illegal_step :
    nextOf (step { withEvents [.hostWrite 0x00 0x70000000] with txBuf := [1, 2, 3], rxValid := true }) =
      some { State.reset with txBuf := [1, 2, 3], rxValid := true, done := true,
                              code := .illegalCommand } := by decide
-- Rule R21: DEC reads {blk, addr, wr}; Rule R130: reset in phase TX with two bytes sent.
theorem test_read_dec :
    ({ State.reset with decBlk := true, decAddr := 63, decWr := true } : State).readRegister 0x07 =
      some 0xFF := by decide
theorem test_reset_in_tx :
    (nextOf (step { txState .rd [0x02, 0x20, 0x04] with schedule := [.reset 2] })).map
      (fun t => (t.lineTx, t.txLen, t.status)) = some ([0x02, 0x20], 0, 0x00) := by decide
-- Rule R58: the value of an address assignment.
theorem test_assignment_value : assignmentValue 3 = 0x83 := by decide
-- P1 and rule R60: CHECKSUM's words.
theorem test_checksum_program :
    assembleLine "CHECKSUM 0x31, 50 ; two bytes" =
      some [.hostWrite 0 0x00000000, .hostWrite 0 0x10000031, .hostWrite 0 0x10000032] := by decide

/-! ## The host's machines (rules R151 to R155) -/

-- Rule R151 and V72: the sequence stops at its first command, NO_RESPONSE; only that frame was sent.
theorem test_read_voltage_stops :
    (driveSequence [[], []] (readVoltageAndTemperature 1) State.reset).1 =
        .failed (.rd 1 0x20 4) .noResponse ∧
      (nextOf (driveSequence [[], []] (readVoltageAndTemperature 1) State.reset).2).map State.lineTx =
        some [0x02, 0x20, 0x04] := by decide +kernel
-- Rule R151 and V59: alert 01, fault 02, COV 04, CUV 08.
theorem test_read_status_succeeds :
    (driveSequence [[0x02, 0x20, 0x04, 0x01, 0x02, 0x04, 0x08, 0xA1]] (readStatus 1) State.reset).1 =
        .succeeded [[0x02, 0x20, 0x04, 0x01, 0x02, 0x04, 0x08, 0xA1]] ∧
      statusFlags [0x02, 0x20, 0x04, 0x01, 0x02, 0x04, 0x08, 0xA1] =
        some (0x01, 0x02, 0x04, 0x08) := by decide +kernel
-- Rule R153: module 1 does not answer, module 2 is read all the same; rule R155 (d) for both. The frames
-- are 7F 32 00 F3 (V36), 02 20 04 (V33) and 04 20 04 (rule R80).
theorem test_poll_isolates :
    (drivePoll [[0x7F, 0x32, 0x00, 0xF3], [], [0x0D]] (.broadcasting [1, 2]) State.reset).1 =
        .finished [(1, .failed (.rd 1 0x20 4) .noResponse), (2, .failed (.rd 2 0x20 4) .crcMismatch)] ∧
      (nextOf (drivePoll [[0x7F, 0x32, 0x00, 0xF3], [], [0x0D]] (.broadcasting [1, 2])
          State.reset).2).map State.lineTx =
        some [0x7F, 0x32, 0x00, 0xF3, 0x02, 0x20, 0x04, 0x04, 0x20, 0x04] ∧
      pollFailures [(1, .failed (.rd 1 0x20 4) .noResponse), (2, .failed (.rd 2 0x20 4) .crcMismatch)] =
        [.moduleReadFailure 1 0x20 .noResponse, .moduleReadFailure 2 0x20 .crcMismatch] := by
  decide +kernel
-- Rule R154: address order, an empty mask and a failed read are skipped, the last touched is polled.
theorem test_balancing_modules :
    balancedModules [(3, .succeeded []), (1, .succeeded []), (2, .failed (.rd 2 0x20 4) .noResponse),
        (4, .succeeded [])] (fun m => if m = 4 then 0 else 0x02) = [1, 3] ∧
      balancePollCommands [1, 3] 2 = [.rd 3 0x32 1, .rd 3 0x32 1] := by decide +kernel

/-! ## The end of a run (rule R156) -/

-- "The end state says nothing about RXFIFO, which may hold bytes that arrived after the last collection".
theorem test_run_over_late_deliveries :
    ({ State.reset with done := true, schedule := [.deliver [0x0D], .hostRead 0x01] } : State).runOver :=
  ⟨by decide, rfl, rfl⟩
-- An environment that delivers on after RX_OVERFLOW (rule R102).
theorem test_run_over_endless :
    ({ State.reset with done := true, code := .rxOverflow, schedule := [.block, .deliverForever 9] } :
      State).runOver :=
  ⟨by decide, rfl, rfl⟩
theorem test_run_not_over_before_last_command :
    ¬({ State.reset with done := true, schedule := [.hostWait, .hostWrite 0x00 0x10000031] } :
      State).runOver :=
  fun h => absurd (h.1 (.hostWrite 0x00 0x10000031) (by decide)) (by decide)
theorem test_run_not_over_at_reset : ¬State.reset.runOver := fun h => by cases h.2.1
theorem test_run_not_over_in_transaction :
    ¬({ rxState [] with done := true } : State).runOver := fun h => by cases h.2.2

/-! ## Witnesses: concrete states and operands that meet the hypotheses of each obligation

One theorem for each obligation with hypotheses, one conjunct for each of its clauses, at boundary
values. A hypothesis that fixes `RX_CAP` is met in the case that `RX_CAP` is bounded (rule R5, log 9):
its witness is a state for whatever that bound is. -/

/-- A running state that has the invariant: phase TX of `RD 1, 0x20, 4`. -/
theorem test_inv_tx : (txState .rd [0x02, 0x20, 0x04]).Inv :=
  { txLen := .inr (.inl rfl)
    rxLen := fun _ _ => Nat.zero_le _
    running := fun _ =>
      { frame := ⟨.rd, rfl, rfl⟩, notDone := rfl, notValid := rfl, codeOk := rfl,
        crcClear := ⟨rfl, rfl⟩, transport := rfl, notYetCollected := fun _ => rfl }
    resting := fun h => by cases h }

theorem test_witness_InvariantKeptByEveryStep :
    ∃ s t : State, s.Inv ∧ step s = .next t ∧ s.phase ≠ .idle :=
  ⟨txState .rd [0x02, 0x20, 0x04], _, test_inv_tx, rfl, by decide⟩

theorem test_witness_ResetInputRestoresRegisters :
    ({ txState .rd [0x02, 0x20, 0x04] with schedule := [.reset 2] } : State).schedule = .reset 2 :: [] :=
  rfl

theorem test_witness_HostRegisterPort_tx :
    3 < 4 ∧ (txState .wr [0x7F, 0x32, 0x00, 0xF3]).txBuf[3]? = some 0xF3 := by decide

theorem test_witness_HostRegisterPort_rx :
    ({ State.reset with rxValid := true, rxBuf := List.replicate 259 0x5A } : State).rxBuf[258]? =
      some 0x5A ∧ ∀ cap, Config.rxCap = some cap → 258 < cap :=
  ⟨by decide +kernel, fun _ h => Nat.lt_of_lt_of_le (by decide) (rxCap_ge h)⟩

theorem test_witness_HostRegisterPort_outside :
    (∀ cap, Config.rxCap = some cap → cap ≤ cap) ∧ (0x08 < 0x09 ∧ 0x09 < 0x10) ∧
      (0x08 < 0x0F ∧ 0x0F < 0x10) ∧ (0x13 < 0x14 ∧ 0x14 < 0x1000) ∧ (0x13 < 0xFFF ∧ 0xFFF < 0x1000) :=
  ⟨fun _ _ => Nat.le_refl _, by decide⟩

theorem test_witness_HostRegisterPort_moves :
    (withEvents [.hostRead 0x01]).schedule = .hostRead 0x01 :: [] ∧
      (withEvents [.hostRead 0x01]).readRegister 0x01 = some 0 ∧
      (withEvents [.hostWrite 0x01 5]).schedule = .hostWrite 0x01 5 :: [] ∧ (0x01 ≤ 0x01 ∧ 0x01 ≤ 0x08) ∧
      (0x10 ≤ 0x13 ∧ 0x13 ≤ 0x13) ∧ 0x1000 = 0x1000 + 0 := by decide

theorem test_witness_UnreadableBufferByteRefused :
    (3 < 4 ∧ ({ txState .rd [0, 0, 0] with schedule := [.hostRead 0x13] } : State).txBuf.length ≤ 3) ∧
      (∀ cap, Config.rxCap = some cap → 258 < cap) ∧
      (withEvents [.hostRead (0x1000 + 258)]).rxValid = false ∧
      ({ State.reset with rxValid := true, schedule := [.hostRead 0x1000] } : State).rxBuf.length ≤ 0 :=
  ⟨by decide, fun _ h => Nat.lt_of_lt_of_le (by decide) (rxCap_ge h), by decide, by decide⟩

theorem test_witness_ChecksumIsLinear :
    ([0x31, 0x32] : List Byte).length = ([0xFF, 0x80] : List Byte).length := by decide

theorem test_witness_LeadingZerosAreInvisible : ([0x0D] : List Byte) ≠ [] := by decide

theorem test_witness_CrcOkExactlyWhenChecksumZero : ([0x00] : List Byte) ≠ [] := by decide

theorem test_witness_CrcInitResult :
    (opField 0x00000001 = 0 ∧ (0x00000001 : Word) ≠ 0) ∧ State.reset.phase = .idle ∧
      (txState .rd [0, 0, 0]).phase ≠ .idle := by decide

theorem test_witness_CrcByteResult :
    State.reset.phase = .idle ∧ (checkState .wr []).phase ≠ .idle := by decide

theorem test_witness_StreamingChecksumOfARun :
    ∃ t, (∀ e ∈ [Event.deliver [0x55], .hostWrite 0x00 0x10000031], restartsCrc e = false) ∧
      runSteps 3 (withEvents [.hostWrite 0x00 0x00000000, .deliver [0x55], .hostWrite 0x00 0x10000031]) =
        .next t ∧ t.schedule = [] :=
  ⟨_, by decide, rfl, rfl⟩

theorem test_witness_ChecksumProgramCompletes :
    (withEvents ((checksumProgram [0x31, 0x32]).flatMap presentEvents)).phase = .idle ∧
      (withEvents ((checksumProgram [0x31, 0x32]).flatMap presentEvents)).schedule =
        [.hostWrite 0 0x00000000, .hostWrite 0 0x10000031, .hostWrite 0 0x10000032] := by decide

theorem test_witness_CrcAccWrittenOnlyByItsCommands :
    ∃ t, step (withEvents [.hostWrite 0x00 0x10000031]) = .next t ∧ t.crcAcc ≠ State.reset.crcAcc :=
  ⟨_, rfl, by decide⟩

theorem test_witness_EncodeRequestResult :
    (¬((63 : Nat) > 63 ∨ (255 : Nat) > 255 ∨ (255 : Nat) > 255)) ∧ (64 : Nat) > 63 := by decide

theorem test_witness_AddressByteRoundTrip : (63 : Nat) ≤ 63 := by decide

theorem test_witness_EncResult :
    ((255 : Nat) ≤ 255) ∧ State.reset.phase = .idle ∧ (64 : Nat) > 63 ∧ (256 : Nat) > 255 ∧
      (encodeRequest 63 255 255 true).isSome = true ∧ (rxState []).phase ≠ .idle := by decide

theorem test_witness_DecResult :
    State.reset.phase = .idle ∧ (rxState []).phase ≠ .idle := by decide

theorem test_witness_ConformingResponseParses :
    ([0x02, 0x20, 0x04] : List Byte).length = 3 ∧ ([0, 0, 0] : List Byte).length < 4 := by decide

theorem test_witness_DecodeOfEncode :
    (Instr.enc 255 255 255 true).WellFormed ∧ (Instr.frameWrReq 63 0x32 0x00 0xF3).WellFormed ∧
      (Instr.frameRsp 0x02 0x20 0x04 [0x01, 0x02, 0x04, 0x08] 0xA1).WellFormed := by decide +kernel

theorem test_witness_EncodeOfDecode :
    decode (.command 0x21FFFFFF) = .ok (.enc 255 255 255 true) ∧
      decode (.request [0x7F, 0x32, 0x00, 0x00]) = .ok (.frameWrReq 63 0x32 0x00 0x00) := by decide

theorem test_witness_RowsPartitionTheAcceptedWords :
    rowEnc ∈ commandRows ∧ rowEnc.selects 0x21FFFFFF = true := by decide

theorem test_witness_BuiltFrameIsTheWireRow :
    (∃ f, encodeRequest 63 255 255 true = some f) ∧ ∃ f, encodeRequest 0 0 0 false = some f :=
  ⟨⟨_, rfl⟩, ⟨_, rfl⟩⟩

theorem test_witness_StepRunsDecodedInstruction :
    decodeCommand 0x40012004 = .ok (.rd 1 0x20 4) ∧
      decodeRequest (txState .rd [0x02, 0x20, 0x04]).txBuf = .ok (.frameRdReq 1 0x20 4) ∧
      ({ txState .rd [0x02, 0x20, 0x04] with schedule := [.block] } : State).phase = .tx ∧
      (txState .rd [0x02, 0x20, 0x04]).schedule = [] ∧
      decodeResponse [0x00, 0x00, 0x00, 0x00] = .ok (.frameRsp 0 0 0 [] 0) := by decide

theorem test_witness_PlacedPatternRunsNext :
    decodeCommand 0x603F3200 = .ok (.wr 63 0x32 0) ∧
      decodeResponse [0x00, 0x00, 0x00, 0x00] = .ok (.frameRsp 0 0 0 [] 0) ∧
      decodeRequest [0x02, 0x20, 0x04] = .ok (.frameRdReq 1 0x20 4) := by decide

theorem test_witness_EveryTableWordRunsFromReset :
    decodeTableWord 32 0x40012004 = some (.rd 1 0x20 4) ∧
      decodeTableWord 24 0x022004 = some (.frameRdReq 1 0x20 4) ∧
      decodeTableWord 40 0x0000000000 = some (.frameRsp 0 0 0 [0] 0) := by decide

theorem test_witness_HostWaitsForDone :
    (withEvents [.hostWait]).schedule = .hostWait :: [] ∧ (withEvents [.hostWait]).done = false ∧
      ({ withEvents [.hostWait] with done := true } : State).done = true := by decide

theorem test_witness_TransactionAcceptance :
    State.reset.phase = .idle ∧ State.reset.transportOpen = true ∧
      encodeRequest 64 0 0 (transWrites .rd) = none ∧
      encodeRequest 63 0xFF 0xFF (transWrites .wr) = some [0x7F, 0xFF, 0xFF, 0x04] := by decide +kernel

theorem test_witness_RdAcceptedWithItsFrame :
    State.reset.phase = .idle ∧ State.reset.transportOpen = true ∧ (63 : Nat) ≤ 63 ∧ (255 : Nat) ≤ 255 := by
  decide

theorem test_witness_RdncAcceptedWithItsFrame :
    State.reset.phase = .idle ∧ State.reset.transportOpen = true ∧ (0 : Nat) ≤ 63 ∧ (255 : Nat) ≤ 255 := by
  decide

theorem test_witness_WrAcceptedWithItsFrame :
    State.reset.phase = .idle ∧ State.reset.transportOpen = true ∧ (63 : Nat) ≤ 63 ∧ (255 : Nat) ≤ 255 := by
  decide

theorem test_witness_TransactionAcceptance_busy :
    ({ rxState [] with schedule := [.hostWrite 0x00 0x70000000] } : State).phase ≠ .idle ∧
      ({ rxState [] with schedule := [.hostWrite 0x00 0x70000000] } : State).schedule =
        .hostWrite 0x00 0x70000000 :: [] := by decide

theorem test_witness_TransportMustBeOpen :
    ({ State.reset with transportOpen := false } : State).phase = .idle ∧
      ({ State.reset with transportOpen := false } : State).transportOpen = false ∧
      (withEvents [.openTransport true]).schedule = .openTransport true :: [] ∧
      (withEvents [.openTransport false]).schedule = .openTransport false :: [] := by decide

theorem test_witness_TxPhaseSendsTheFrame : (txState .rd [0x02, 0x20, 0x04]).phase = .tx := rfl

theorem test_witness_SettlePhaseIsAlwaysEnabled :
    ({ State.reset with phase := .settle } : State).phase = .settle := rfl

theorem test_witness_RxPhaseCollects :
    (rxState []).phase = .rx ∧ (rxState []).rxFifo = [] ∧ (rxState [0x0D]).rxFifo = 0x0D :: [] ∧
      Config.rxCap ≠ some (rxState [0x0D]).rxBuf.length ∧
      ∀ cap, Config.rxCap = some cap →
        Config.rxCap = some
          ({ rxState [0x0D] with rxBuf := List.replicate cap 0x00 } : State).rxBuf.length :=
  ⟨rfl, rfl, rfl, fun h => absurd (rxCap_ge h) (by decide), fun cap h => by simpa using h⟩

theorem test_witness_CheckPhaseJudges :
    (checkState .rdnc []).phase = .check ∧ (checkState .rdnc []).opLatch = .transaction .rdnc ∧
      (checkState .rd []).opLatch ≠ .transaction .rdnc ∧ (checkState .rd []).rxBuf = [] ∧
      (checkState .wr [0x07]).rxBuf = [] ++ [0x07] ∧ (0x07 : Byte) ≠ checksum [] ∧
      (checkState .wr [0x00]).rxBuf = [] ++ [0x00] ∧ (0x00 : Byte) = checksum [] := by decide

theorem test_witness_OkMeansChecksumZero :
    (checkState .rd [0x00]).phase = .check ∧ (checkState .rd [0x00]).opLatch ≠ .transaction .rdnc ∧
      (checkState .rd [0x00]).rxBuf ≠ [] ∧ ∃ t, blockStep (checkState .rd [0x00]) = .next t :=
  ⟨rfl, by decide, by decide, _, rfl⟩

theorem test_witness_TransactionRefinesBigStep :
    encodeRequest 64 0 0 (transWrites .rdnc) = none ∧
      encode (transInstr .rd 63 255 255) = .command 0x403FFFFF ∧
      (withEvents (transactionSchedule 0x403FFFFF [[0x0D], [0x0E]])).schedule =
        .hostWrite 0x00 0x403FFFFF :: [.block, .deliver [0x0D], .deliver [0x0E]] := by decide

-- V74: RDNC 0, 0, 1 with nothing delivered ends OK; a late byte stays pending.
theorem test_witness_TransactionRefinesBigStep_run :
    ∃ t, runSteps (5 + 1)
        (withEvents [.hostWrite 0x00 0x50000001, .block, .block, .block, .block, .deliver [0x0D]]) =
          .next t ∧ t.phase = .idle ∧ t.schedule = [] ∧ t.rxFifo = [0x0D] :=
  ⟨_, rfl, rfl, rfl, rfl⟩

-- V75: the acknowledgment of WR 63, 0x32, 0 is its frame.
theorem test_witness_ConformingTransactionEndsOk :
    TransOp.wr ≠ .rdnc ∧
      (withEvents (transactionSchedule 0x603F3200 [[0x7F, 0x32], [0x00, 0xF3]])).rxFifo = [] ∧
      encodeRequest 63 0x32 0 (transWrites .wr) = some [0x7F, 0x32, 0x00, 0xF3] ∧
      encode (transInstr .wr 63 0x32 0) = .command 0x603F3200 ∧
      Conforming .wr 0 [0x7F, 0x32, 0x00, 0xF3] [] [0x7F, 0x32, 0x00, 0xF3] ∧
      ([[0x7F, 0x32], [0x00, 0xF3]] : List (List Byte)).flatten = [0x7F, 0x32, 0x00, 0xF3] :=
  ⟨by decide, rfl, by decide +kernel, by decide, ⟨by decide +kernel, rfl⟩, rfl⟩

theorem test_witness_TransactionEnds :
    (rxState [0x0D]).phase ≠ .idle ∧ (rxState [0x0D]).schedule = [] := by decide

-- The same state serves whether `RX_CAP` is unbounded or has any bound.
theorem test_witness_TransactionEnds_endless :
    ({ rxState [] with schedule := [.deliverForever 0] } : State).phase = .rx ∧
      ({ rxState [] with schedule := [.deliverForever 0] } : State).schedule = .deliverForever 0 :: [] ∧
      (∀ cap, Config.rxCap = some cap →
        ({ rxState [] with schedule := [.deliverForever 0] } : State).rxBuf.length ≤ cap) ∧
      (Config.rxCap = none ∨ ∃ cap, Config.rxCap = some cap) :=
  ⟨rfl, rfl, fun _ _ => Nat.zero_le _, by cases Config.rxCap <;> simp⟩

theorem test_witness_ConformingAckIsTheRequest :
    encodeRequest 0 0x3B 0x81 true = some [0x01, 0x3B, 0x81, 0x8B] := by decide +kernel

theorem test_witness_IllegalCommandChangesOnlyStatus :
    (withEvents [.hostWrite 0x00 0x41010104]).phase = .idle ∧
      ∀ row ∈ commandRows, ((0x41010104 : Word) &&& row.mask) ≠ row.pattern := by decide

theorem test_witness_OutcomeKeptUntilNextCommand :
    ∃ s t : State, s.phase = .idle ∧ step s = .next t ∧
      (∀ c rest, s.schedule ≠ .hostWrite 0x00 c :: rest) ∧
      (∀ sent rest, s.schedule ≠ .reset sent :: rest) ∧ s.code = .crcMismatch :=
  ⟨{ State.reset with code := .crcMismatch, crcRx := 7, done := true, schedule := [.deliver [0x01]] },
    _, rfl, by rfl, fun _ _ h => (by cases h), fun _ _ h => (by cases h), rfl⟩

theorem test_witness_CommandsWriteOnlyTheirRegisters :
    (∃ t, exec (.dec 0x7F) State.reset = .next t) ∧
      (∃ t, exec (.frameRdReq 1 0x20 4) (txState .rd [0x02, 0x20, 0x04]) = .next t) ∧
      (∃ t, exec (.rd 64 0 0) State.reset = .next t) ∧
      (∀ b, Instr.dec 0x7F ≠ .crcByte b) ∧ Instr.dec 0x7F ≠ .crcInit ∧
      (∀ b, Instr.crcInit ≠ .dec b) ∧ (∀ op a r v, Instr.dec 0x7F ≠ transInstr op a r v) ∧
      (∀ a r v w, Instr.dec 0x7F ≠ .enc a r v w) ∧
      (∀ e0 e1 e2 payload c, Instr.dec 0x7F ≠ .frameRsp e0 e1 e2 payload c) ∧
      (∀ a r n, Instr.dec 0x7F ≠ .frameRdReq a r n) ∧ (∀ a r v c, Instr.dec 0x7F ≠ .frameWrReq a r v c) ∧
      ∀ c, encode (.frameRdReq 1 0x20 4) ≠ .command c :=
  ⟨⟨_, rfl⟩, ⟨_, rfl⟩, ⟨_, rfl⟩, fun _ h => (by cases h), fun h => (by cases h), fun _ h => (by cases h),
    fun op _ _ _ h => (by cases op <;> cases h), fun _ _ _ _ h => (by cases h),
    fun _ _ _ _ _ h => (by cases h), fun _ _ _ h => (by cases h), fun _ _ _ _ h => (by cases h),
    fun _ h => (by cases h)⟩

theorem test_witness_PhasesWriteOnlyTheirRegisters :
    (∃ t, blockStep (rxState [0x0D]) = .next t) ∧ (rxState [0x0D]).phase ≠ .check ∧
      (∃ t, blockStep (checkState .rdnc [0x0D]) = .next t) ∧
      (checkState .rdnc [0x0D]).opLatch = .transaction .rdnc :=
  ⟨⟨_, rfl⟩, by decide, ⟨_, rfl⟩, rfl⟩

theorem test_witness_RequestFrameGoesOut :
    (txState .rd [0x02, 0x20, 0x04]).phase = .tx ∧
      (txState .rd [0x02, 0x20, 0x04]).txBuf = [joinAddr false 1 false, 0x20, 0x04] ∧
      (txState .wr [0x7F, 0x32, 0x00, 0xF3]).txBuf = [joinAddr false 63 true, 0x32, 0x00, 0xF3] ∧
      State.reset.phase ≠ .tx ∧
      (txState .rd [0x02, 0x20, 0x05]).txBuf ≠ [joinAddr false 1 false, 0x20, 0x04] := by decide

theorem test_witness_DeliveryIsAlwaysEnabled :
    ({ checkState .wr [] with schedule := [.deliver []] } : State).schedule = .deliver [] :: [] ∧
      (withEvents [.deliverForever 3]).schedule = .deliverForever 3 :: [] := by decide

theorem test_witness_DeliveryCommutesOutsideRx :
    (checkState .wr [0x00]).phase ≠ .rx ∧ ∃ t, blockStep (checkState .wr [0x00]) = .next t :=
  ⟨by decide, _, rfl⟩

theorem test_witness_LineTxGrowsOnlyByFrames :
    ∃ t, step (txState .rd [0x02, 0x20, 0x04]) = .next t ∧ t.lineTx ≠ [] := ⟨_, rfl, by decide⟩

theorem test_witness_RxFifoIsAQueue :
    ∃ t, step (rxState [0x0D, 0x0E]) = .next t ∧ t.rxFifo = [0x0E] := ⟨_, rfl, by decide⟩

theorem test_witness_PhaseOrder :
    ∃ t, step (txState .rd [0x02, 0x20, 0x04]) = .next t ∧ t.phase ≠ .tx := ⟨_, rfl, by decide⟩

end Sys2Proof.Machine.Tests
end

section
/-! What one step does to the state's fields, said once: the block's move with RX and CHECK resolved
(`BlockEffect`), the frames of the instructions, and the step by the kind of its mover (`StepKind`). -/

namespace Sys2Proof.Machine

/-! ## The block's move (rules R91 to R95) -/

/-- `BlockCase` with phases RX and CHECK resolved into their outcomes (rules R94, R95). -/
inductive BlockEffect (s : State) : State → Prop where
  | idle (hp : s.phase = .idle) : BlockEffect s s
  | sent (hp : s.phase = .tx) : BlockEffect s s.transmit
  | settled (hp : s.phase = .settle) : BlockEffect s (s.setPhase .rx)
  | drained (hp : s.phase = .rx) (hf : s.rxFifo = []) : BlockEffect s (s.setPhase .check)
  | overflowed {b : Byte} {rest : List Byte} (hp : s.phase = .rx) (hf : s.rxFifo = b :: rest)
      (hc : Config.rxCap = some s.rxBuf.length) : BlockEffect s (s.raiseTransaction .rxOverflow)
  | taken {b : Byte} {rest : List Byte} (hp : s.phase = .rx) (hf : s.rxFifo = b :: rest)
      (hc : Config.rxCap ≠ some s.rxBuf.length) : BlockEffect s (s.takeByte b rest)
  | unjudged (hp : s.phase = .check) (ho : s.opLatch = .transaction .rdnc) :
      BlockEffect s s.completeTransaction
  | unanswered (hp : s.phase = .check) (ho : s.opLatch ≠ .transaction .rdnc)
      (hb : s.rxBuf = []) : BlockEffect s (s.raiseTransaction .noResponse)
  | matched {rx : List Byte} {crc : Byte} (hp : s.phase = .check)
      (ho : s.opLatch ≠ .transaction .rdnc) (hb : s.rxBuf = rx ++ [crc]) (hc : crc = checksum rx) :
      BlockEffect s (s.setCrcPair crc (checksum rx)).completeTransaction
  | mismatched {rx : List Byte} {crc : Byte} (hp : s.phase = .check)
      (ho : s.opLatch ≠ .transaction .rdnc) (hb : s.rxBuf = rx ++ [crc]) (hc : crc ≠ checksum rx) :
      BlockEffect s ((s.setCrcPair crc (checksum rx)).raiseTransaction .crcMismatch)

theorem BlockCase.effect {s t : State} (h : BlockCase s t) : BlockEffect s t := by
  cases h with
  | idle hp => exact .idle hp
  | tx hp => exact .sent hp
  | settle hp => exact .settled hp
  | rx hp =>
    rcases collect_cases s with ⟨hf, he⟩ | ⟨b, rest, hf, hc, he⟩ | ⟨b, rest, hf, hc, he⟩ <;> rw [he]
    · exact .drained hp hf
    · exact .overflowed hp hf hc
    · exact .taken hp hf hc
  | check hp =>
    rcases check_cases s with ⟨ho, he⟩ | ⟨ho, hb, he⟩ | ⟨rx, crc, ho, hb, hc, he⟩ |
      ⟨rx, crc, ho, hb, hc, he⟩ <;> rw [he]
    · exact .unjudged hp ho
    · exact .unanswered hp ho hb
    · exact .matched hp ho hb hc
    · exact .mismatched hp ho hb hc

/-- The fields that no phase writes. -/
theorem BlockEffect.frame {s t : State} (h : BlockEffect s t) :
    t.crcAcc = s.crcAcc ∧ t.decAddr = s.decAddr ∧ t.decWr = s.decWr ∧ t.decBlk = s.decBlk ∧
    t.txBuf = s.txBuf ∧ t.opLatch = s.opLatch ∧ t.transportOpen = s.transportOpen ∧
    t.schedule = s.schedule ∧ t.hostData = s.hostData := by
  cases h <;> exact ⟨rfl, rfl, rfl, rfl, rfl, rfl, rfl, rfl, rfl⟩

/-- Only the judgement of phase CHECK, which RDNC leaves out, writes the CRC registers. -/
theorem BlockEffect.crcPair_frame {s t : State} (h : BlockEffect s t)
    (hn : s.phase ≠ .check ∨ s.opLatch = .transaction .rdnc) :
    t.crcRx = s.crcRx ∧ t.crcCalc = s.crcCalc := by
  cases h with
  | matched hp ho => exact absurd hn (by simp [hp, ho])
  | mismatched hp ho => exact absurd hn (by simp [hp, ho])
  | _ => exact ⟨rfl, rfl⟩

/-! ## Acceptance of a transaction (rule R91) -/

section
variable (op : TransOp) (a r v : Nat) (s : State)

/-- What neither outcome of acceptance writes, acceptance does not write. -/
theorem acceptTransaction_keeps {α : Type} (field : State → α)
    (hr : field (s.clearForTransaction.raiseTransaction .invalidArgument) = field s)
    (hs : ∀ f, field (s.clearForTransaction.startTransaction op f) = field s) :
    field (s.acceptTransaction op a r v) = field s := by
  rcases acceptTransaction_cases op a r v s with ⟨-, he⟩ | ⟨f, -, he⟩ <;> rw [he]
  · exact hr
  · exact hs f

@[simp] theorem acceptTransaction_crcAcc : (s.acceptTransaction op a r v).crcAcc = s.crcAcc :=
  acceptTransaction_keeps _ _ _ _ _ State.crcAcc rfl fun _ => rfl
@[simp] theorem acceptTransaction_decAddr : (s.acceptTransaction op a r v).decAddr = s.decAddr :=
  acceptTransaction_keeps _ _ _ _ _ State.decAddr rfl fun _ => rfl
@[simp] theorem acceptTransaction_decWr : (s.acceptTransaction op a r v).decWr = s.decWr :=
  acceptTransaction_keeps _ _ _ _ _ State.decWr rfl fun _ => rfl
@[simp] theorem acceptTransaction_decBlk : (s.acceptTransaction op a r v).decBlk = s.decBlk :=
  acceptTransaction_keeps _ _ _ _ _ State.decBlk rfl fun _ => rfl
@[simp] theorem acceptTransaction_rxFifo : (s.acceptTransaction op a r v).rxFifo = s.rxFifo :=
  acceptTransaction_keeps _ _ _ _ _ State.rxFifo rfl fun _ => rfl
@[simp] theorem acceptTransaction_lineTx : (s.acceptTransaction op a r v).lineTx = s.lineTx :=
  acceptTransaction_keeps _ _ _ _ _ State.lineTx rfl fun _ => rfl
@[simp] theorem acceptTransaction_transportOpen :
    (s.acceptTransaction op a r v).transportOpen = s.transportOpen :=
  acceptTransaction_keeps _ _ _ _ _ State.transportOpen rfl fun _ => rfl
@[simp] theorem acceptTransaction_schedule :
    (s.acceptTransaction op a r v).schedule = s.schedule :=
  acceptTransaction_keeps _ _ _ _ _ State.schedule rfl fun _ => rfl
@[simp] theorem acceptTransaction_hostData :
    (s.acceptTransaction op a r v).hostData = s.hostData :=
  acceptTransaction_keeps _ _ _ _ _ State.hostData rfl fun _ => rfl

@[simp] theorem acceptTransaction_rxBuf : (s.acceptTransaction op a r v).rxBuf = [] := by
  rcases acceptTransaction_cases op a r v s with ⟨-, he⟩ | ⟨f, -, he⟩ <;> rw [he] <;> rfl

theorem acceptTransaction_phase :
    (s.acceptTransaction op a r v).phase = .idle ∨ (s.acceptTransaction op a r v).phase = .tx := by
  rcases acceptTransaction_cases op a r v s with ⟨-, he⟩ | ⟨f, -, he⟩ <;> rw [he]
  · exact .inl rfl
  · exact .inr rfl

end

/-! ## The instructions -/

/-- The block enters a transaction by acceptance and leaves phase TX by its frame; no instruction
changes `PHASE` otherwise. -/
theorem ExecCase.phase_change {i : Instr} {s t : State} (h : ExecCase i s t)
    (hn : t.phase ≠ s.phase) :
    (s.phase = .idle ∧ t.phase = .tx) ∨ (s.phase = .tx ∧ t.phase = .settle) := by
  have accepted : ∀ {op a r v}, s.phase = .idle → t = s.acceptTransaction op a r v →
      s.phase = .idle ∧ t.phase = .tx := by
    rintro op a r v hi rfl
    exact ⟨hi, (acceptTransaction_phase op a r v s).resolve_left fun hp => hn (hp.trans hi.symm)⟩
  cases h with
  | rd hi => exact .inl (accepted hi rfl)
  | rdnc hi => exact .inl (accepted hi rfl)
  | wr hi => exact .inl (accepted hi rfl)
  | frameRdReq hp => exact .inr ⟨hp, rfl⟩
  | frameWrReq hp => exact .inr ⟨hp, rfl⟩
  | _ => exact absurd rfl hn

/-- An instruction leaves `LINE_TX`, or it is the frame in `TXBUF` that goes out. -/
theorem ExecCase.lineTx_change {i : Instr} {s t : State} (h : ExecCase i s t) :
    t.lineTx = s.lineTx ∨
      (s.phase = .tx ∧ t.phase = .settle ∧ t.lineTx = s.lineTx ++ s.txBuf) := by
  cases h with
  | frameRdReq hp => exact .inr ⟨hp, rfl, rfl⟩
  | frameWrReq hp => exact .inr ⟨hp, rfl, rfl⟩
  | _ => exact .inl (by simp)

/-- An instruction takes nothing from `RXFIFO` and adds nothing to `RXBUF`. -/
theorem ExecCase.rx_change {i : Instr} {s t : State} (h : ExecCase i s t) :
    ∃ bytes, t.rxFifo = s.rxFifo ++ bytes ∧ (t.rxBuf = s.rxBuf ∨ t.rxBuf = []) := by
  cases h with
  | frameRsp => exact ⟨_, rfl, .inl rfl⟩
  | _ => exact ⟨[], by simp⟩

/-! ## The step by its mover (rule R10) -/

/-- `StepCase` by who moves: the block, the host with a word at `CMD`, the reset input, or the host and
the environment with a move that leaves every register of the block. -/
inductive StepKind (s : State) : State → Prop where
  | block {es : List Event} {t : State} (hb : BlockEffect (s.withSchedule es) t) : StepKind s t
  | command {c : Word} {i : Instr} {rest : List Event} {t : State}
      (hs : s.schedule = .hostWrite 0x00 c :: rest) (hd : decodeCommand c = .ok i)
      (he : ExecCase i (s.withSchedule rest) t) : StepKind s t
  | illegal {c : Word} {e : DecodeError} {rest : List Event}
      (hs : s.schedule = .hostWrite 0x00 c :: rest) (hd : decodeCommand c = .error e)
      (hi : s.phase = .idle) :
      StepKind s ((s.withSchedule rest).raiseWord .illegalCommand)
  | outside {es : List Event} {fifo bytes : List Byte} {opened : Bool} {read : Nat}
      (hf : fifo = s.rxFifo ++ bytes) (ho : s.transportOpen = true → opened = true) :
      StepKind s { s with rxFifo := fifo, transportOpen := opened, schedule := es, hostData := read }
  | reset {sent : Nat} {rest : List Event} (hs : s.schedule = .reset sent :: rest) :
      StepKind s ((s.withSchedule rest).resetBlock sent)

theorem step_next_kind {s t : State} (h : step s = .next t) : StepKind s t := by
  cases step_next_cases h with
  | own _ hb => exact .block (es := s.schedule) hb.effect
  | block _ hb => exact .block hb.effect
  | command hs hd he => exact .command hs hd he
  | illegal hs hd hi => exact .illegal hs hd hi
  | ignored => exact .outside (List.append_nil _).symm id
  | read => exact .outside (List.append_nil _).symm id
  | waited => exact .outside (List.append_nil _).symm id
  | waiting _ _ hb => exact .block (es := s.schedule) hb.effect
  | deliver => exact .outside rfl id
  | deliverForever => exact .outside rfl id
  | reset hs => exact .reset hs
  | opened => exact .outside (List.append_nil _).symm fun _ => rfl

end Sys2Proof.Machine
end

section
/-! The invariant of Sys2Proof/Safety.lean: it holds after reset, and the block's move, every instruction
and every other move keep it. -/

namespace Sys2Proof.Machine

/-! ## A block in mid-transaction, and a block at rest -/

/-- While a transaction runs, its frame says what `TXLEN` is. -/
theorem State.Inv.of_running {t : State} (hr : t.Running) (hb : t.phase ≠ .idle)
    (hx : ∀ cap, Config.rxCap = some cap → t.rxBuf.length ≤ cap) : t.Inv where
  txLen := by
    obtain ⟨op, -, hf⟩ := hr.frame
    cases op <;> simp [hf, transWrites]
  rxLen := hx
  running _ := hr
  resting hi := absurd hi hb

theorem State.Inv.of_resting {t : State} (hr : t.Resting) (hi : t.phase = .idle)
    (ht : t.txBuf.length = 0 ∨ t.txBuf.length = 3 ∨ t.txBuf.length = 4)
    (hx : ∀ cap, Config.rxCap = some cap → t.rxBuf.length ≤ cap) : t.Inv where
  txLen := ht
  rxLen := hx
  running hb := absurd hi hb
  resting _ := hr

/-- A fault of a transaction leaves a block at rest; a mismatch must have been one (rule R119). -/
theorem State.Inv.raiseTransaction {s : State} {c : Code}
    (ht : s.txBuf.length = 0 ∨ s.txBuf.length = 3 ∨ s.txBuf.length = 4)
    (hc : c = .crcMismatch → s.crcRx ≠ s.crcCalc) : (s.raiseTransaction c).Inv :=
  .of_resting (ht := ht) (hi := rfl) (hx := fun _ _ => Nat.zero_le _)
    { withheld := fun _ => rfl
      validDone := fun _ => rfl
      validCrc := fun hv => by cases hv
      mismatchDiffers := hc
      faultNotValid := fun _ => rfl
      faultDone := fun _ => rfl }

/-- The end of a transaction that collected its bytes leaves a block at rest, its CRC registers equal
(rules R95, R97). -/
theorem State.Inv.completeTransaction {s : State}
    (ht : s.txBuf.length = 0 ∨ s.txBuf.length = 3 ∨ s.txBuf.length = 4)
    (hx : ∀ cap, Config.rxCap = some cap → s.rxBuf.length ≤ cap) (hc : s.crcRx = s.crcCalc) :
    s.completeTransaction.Inv :=
  .of_resting (ht := ht) (hi := rfl) (hx := hx)
    { withheld := fun hv => by cases hv
      validDone := fun _ => rfl
      validCrc := fun _ => hc
      mismatchDiffers := fun hm => by cases hm
      faultNotValid := fun hf => by rcases hf with hf | hf | hf <;> cases hf
      faultDone := fun _ => rfl }

/-- A command that ends in its own step, `OK` or with a fault that is not a transaction's, keeps the
last transaction's result. -/
theorem State.Inv.endCommand {s : State} {c : Code} {f : List Byte} (h : s.Inv)
    (hi : s.phase = .idle) (hf : f.length = 0 ∨ f.length = 3 ∨ f.length = 4)
    (hc : c = .ok ∨ c = .invalidArgument ∨ c = .illegalCommand) :
    State.Inv { s with txBuf := f, done := true, code := c } :=
  .of_resting (ht := hf) (hi := hi) (hx := h.rxLen)
    { h.resting hi with
      validDone := fun _ => rfl
      mismatchDiffers := by rcases hc with rfl | rfl | rfl <;> simp
      faultNotValid := by rcases hc with rfl | rfl | rfl <;> simp
      faultDone := fun _ => rfl }

/-- What is outside the block does not matter, as long as an open transport stays open. -/
theorem State.Inv.outside {s : State} (h : s.Inv) (fifo : List Byte) (es : List Event) (read : Nat)
    {opened : Bool} (ho : s.transportOpen = true → opened = true) :
    State.Inv { s with rxFifo := fifo, transportOpen := opened, schedule := es, hostData := read } :=
  { h with
    running := fun hb => { h.running hb with transport := ho (h.running hb).transport }
    resting := fun hi => { h.resting hi with } }

theorem State.Inv.withSchedule {s : State} (h : s.Inv) (es : List Event) : (s.withSchedule es).Inv :=
  h.outside s.rxFifo es s.hostData id

theorem State.Inv.setCrcAcc {s : State} (h : s.Inv) (v : Byte) : (s.setCrcAcc v).Inv :=
  { h with
    running := fun hb => { h.running hb with }
    resting := fun hi => { h.resting hi with } }

theorem State.Inv.setDec {s : State} (h : s.Inv) (blk : Bool) (addr : BitVec 6) (wr : Bool) :
    (s.setDec blk addr wr).Inv :=
  { h with
    running := fun hb => { h.running hb with }
    resting := fun hi => { h.resting hi with } }

theorem State.Inv.finishOk {s : State} (h : s.Inv) (hi : s.phase = .idle) : s.finishOk.Inv :=
  h.endCommand hi h.txLen (.inl rfl)

/-- A built frame is one that `TXBUF` may hold (rule R14). -/
theorem encodeRequest_txLen {a r v : Nat} {w : Bool} {f : List Byte}
    (h : encodeRequest a r v w = some f) : f.length = 0 ∨ f.length = 3 ∨ f.length = 4 := by
  cases w <;> simp [encodeRequest_length h]

/-! ## Reset (rules R27, R130) -/

theorem State.Inv.reset : State.reset.Inv :=
  .of_resting (ht := .inl rfl) (hi := rfl) (hx := fun _ _ => Nat.zero_le _)
    { withheld := fun _ => rfl
      validDone := fun hv => by cases hv
      validCrc := fun hv => by cases hv
      mismatchDiffers := fun hm => by cases hm
      faultNotValid := fun _ => rfl
      faultDone := fun hc => absurd rfl hc }

/-- The reset input restores the registers of the invariant, whatever it keeps of the environment. -/
theorem State.Inv.resetBlock (sent : Nat) (s : State) : (s.resetBlock sent).Inv :=
  .of_resting (ht := .inl rfl) (hi := rfl) (hx := fun _ _ => Nat.zero_le _)
    { State.Inv.reset.resting rfl with }

/-! ## The block's move -/

/-- `RXBUF` has room for a byte when it is not full. -/
theorem State.Inv.room {s : State} (h : s.Inv) (hc : Config.rxCap ≠ some s.rxBuf.length) (cap : Nat)
    (hcap : Config.rxCap = some cap) : s.rxBuf.length + 1 ≤ cap :=
  Nat.lt_of_le_of_ne (h.rxLen cap hcap) fun he => hc (he ▸ hcap)

theorem BlockEffect.keeps_inv {s t : State} (hb : BlockEffect s t) (h : s.Inv) : t.Inv := by
  cases hb with
  | idle => exact h
  | sent hp =>
    have hr := h.running (by simp [hp])
    exact .of_running { hr with notYetCollected := fun _ => hr.notYetCollected (.inl hp) }
      (by simp) h.rxLen
  | settled hp =>
    have hr := h.running (by simp [hp])
    exact .of_running { hr with notYetCollected := by simp } (by simp) h.rxLen
  | drained hp =>
    have hr := h.running (by simp [hp])
    exact .of_running { hr with notYetCollected := by simp } (by simp) h.rxLen
  | overflowed => exact .raiseTransaction h.txLen (by simp)
  | taken hp hf hc =>
    have hr := h.running (by simp [hp])
    refine .of_running { hr with notYetCollected := by simp [hp] } (by simp [hp]) ?_
    simpa using h.room hc
  | unjudged hp =>
    obtain ⟨hrx, hcalc⟩ := (h.running (by simp [hp])).crcClear
    exact .completeTransaction h.txLen h.rxLen (hrx.trans hcalc.symm)
  | unanswered => exact .raiseTransaction h.txLen (by simp)
  | matched _ _ _ hc => exact .completeTransaction h.txLen h.rxLen hc
  | mismatched _ _ _ hc => exact .raiseTransaction h.txLen fun _ => hc

/-! ## The instructions -/

theorem State.Inv.acceptTransaction {s : State} (h : s.transportOpen = true) (op : TransOp)
    (a r v : Nat) : (s.acceptTransaction op a r v).Inv := by
  rcases acceptTransaction_cases op a r v s with ⟨-, he⟩ | ⟨f, hf, he⟩ <;> rw [he]
  · exact .raiseTransaction (.inl rfl) (by simp)
  · exact .of_running (hx := fun _ _ => Nat.zero_le _) (hb := by simp)
      { frame := ⟨op, rfl, encodeRequest_length hf⟩
        notDone := rfl
        notValid := rfl
        codeOk := rfl
        crcClear := ⟨rfl, rfl⟩
        transport := h
        notYetCollected := fun _ => rfl }

theorem ExecCase.keeps_inv {i : Instr} {s t : State} (he : ExecCase i s t) (h : s.Inv) : t.Inv := by
  have sent : s.phase = .tx → s.transmit.Inv := fun hp => (BlockEffect.sent hp).keeps_inv h
  cases he with
  | crcInit hi => exact (h.setCrcAcc _).finishOk hi
  | crcByte hi => exact (h.setCrcAcc _).finishOk hi
  | encInvalid hi => exact h.endCommand hi (.inl rfl) (.inr (.inl rfl))
  | encBuilt hi hf => exact h.endCommand hi (encodeRequest_txLen hf) (.inl rfl)
  | dec hi => exact (h.setDec _ _ _).finishOk hi
  | rd _ ht => exact .acceptTransaction ht ..
  | rdnc _ ht => exact .acceptTransaction ht ..
  | wr _ ht => exact .acceptTransaction ht ..
  | frameRdReq hp => exact sent hp
  | frameWrReq hp => exact sent hp
  | frameRsp => exact h.outside _ s.schedule s.hostData id

/-! ## The obligations -/

/-- Settles O2. -/
theorem resetSatisfiesInvariant : Obligations.ResetSatisfiesInvariant :=
  State.Inv.reset

/-- Settles O3, by the kind of the step's mover. -/
theorem invariantKeptByEveryStep : Obligations.InvariantKeptByEveryStep := by
  intro s t h hst
  cases step_next_kind hst with
  | block hb => exact hb.keeps_inv (h.withSchedule _)
  | command _ _ he => exact he.keeps_inv (h.withSchedule _)
  | illegal _ _ hi => exact (h.withSchedule _).endCommand hi h.txLen (.inr (.inr rfl))
  | outside _ ho => exact h.outside _ _ _ ho
  | reset => exact .resetBlock _ _

end Sys2Proof.Machine
end

section
/-! Which registers the instructions, the block's phases and a whole step do not write. -/

namespace Sys2Proof.Machine

/-! ## The instructions, register by register -/

section
variable {i : Instr} {s t : State}

theorem ExecCase.outside_frame (h : ExecCase i s t) :
    t.transportOpen = s.transportOpen ∧ t.schedule = s.schedule ∧ t.hostData = s.hostData := by
  cases h <;> simp

theorem ExecCase.crcAcc_frame (h : ExecCase i s t) (hb : ∀ b, i ≠ .crcByte b) (hi : i ≠ .crcInit) :
    t.crcAcc = s.crcAcc := by
  cases h with
  | crcInit => exact absurd rfl hi
  | crcByte => exact absurd rfl (hb _)
  | _ => simp

theorem ExecCase.dec_frame (h : ExecCase i s t) (hd : ∀ b, i ≠ .dec b) :
    t.decAddr = s.decAddr ∧ t.decWr = s.decWr ∧ t.decBlk = s.decBlk := by
  cases h with
  | dec => exact absurd rfl (hd _)
  | _ => simp

theorem ExecCase.result_frame (h : ExecCase i s t) (ht : ∀ op a r v, i ≠ transInstr op a r v) :
    t.rxBuf = s.rxBuf ∧ t.opLatch = s.opLatch ∧ t.rxValid = s.rxValid ∧ t.crcRx = s.crcRx ∧
      t.crcCalc = s.crcCalc := by
  cases h with
  | rd => exact absurd rfl (ht .rd _ _ _)
  | rdnc => exact absurd rfl (ht .rdnc _ _ _)
  | wr => exact absurd rfl (ht .wr _ _ _)
  | _ => exact ⟨rfl, rfl, rfl, rfl, rfl⟩

theorem ExecCase.txBuf_frame (h : ExecCase i s t) (ht : ∀ op a r v, i ≠ transInstr op a r v)
    (he : ∀ a r v w, i ≠ .enc a r v w) : t.txBuf = s.txBuf := by
  cases h with
  | rd => exact absurd rfl (ht .rd _ _ _)
  | rdnc => exact absurd rfl (ht .rdnc _ _ _)
  | wr => exact absurd rfl (ht .wr _ _ _)
  | encInvalid => exact absurd rfl (he _ _ _ _)
  | encBuilt => exact absurd rfl (he _ _ _ _)
  | _ => rfl

theorem ExecCase.rxFifo_frame (h : ExecCase i s t)
    (hr : ∀ e0 e1 e2 payload c, i ≠ .frameRsp e0 e1 e2 payload c) : t.rxFifo = s.rxFifo := by
  cases h with
  | frameRsp => exact absurd rfl (hr _ _ _ _ _)
  | _ => simp

theorem ExecCase.lineTx_frame (h : ExecCase i s t) (hr : ∀ a r n, i ≠ .frameRdReq a r n)
    (hw : ∀ a r v c, i ≠ .frameWrReq a r v c) : t.lineTx = s.lineTx := by
  cases h with
  | frameRdReq => exact absurd rfl (hr _ _ _)
  | frameWrReq => exact absurd rfl (hw _ _ _ _)
  | _ => simp

theorem ExecCase.phase_frame (h : ExecCase i s t) (hr : ∀ a r n, i ≠ .frameRdReq a r n)
    (hw : ∀ a r v c, i ≠ .frameWrReq a r v c) (ht : ∀ op a r v, i ≠ transInstr op a r v) :
    t.phase = s.phase := by
  cases h with
  | rd => exact absurd rfl (ht .rd _ _ _)
  | rdnc => exact absurd rfl (ht .rdnc _ _ _)
  | wr => exact absurd rfl (ht .wr _ _ _)
  | frameRdReq => exact absurd rfl (hr _ _ _)
  | frameWrReq => exact absurd rfl (hw _ _ _ _)
  | _ => rfl

/-- The wire formats, which have no command word, report no outcome. -/
theorem ExecCase.outcome_frame (h : ExecCase i s t) (hc : ∀ c, encode i ≠ .command c) :
    t.done = s.done ∧ t.code = s.code := by
  cases h with
  | frameRdReq => exact ⟨rfl, rfl⟩
  | frameWrReq => exact ⟨rfl, rfl⟩
  | frameRsp => exact ⟨rfl, rfl⟩
  | _ => exact absurd rfl (hc _)

end

/-! ## The words of CRC.INIT and CRC.BYTE (rules R72, R73) -/

theorem eq_zero_of_decodeCommand_crcInit {c : Word} (h : decodeCommand c = .ok .crcInit) : c = 0 :=
  (selects_crcInit_iff c).1 (by simpa using decodeCommand_ok h)

theorem selects_of_decodeCommand_crcByte {c : Word} {b : Byte}
    (h : decodeCommand c = .ok (.crcByte b)) : rowCrcByte.selects c = true ∧ b = vField c := by
  simpa using decodeCommand_ok h

/-! ## The obligations -/

/-- Settles O53, one register group after the other. -/
theorem commandsWriteOnlyTheirRegisters : Obligations.CommandsWriteOnlyTheirRegisters := by
  intro i s t h
  have he := exec_next_cases h
  exact ⟨he.outside_frame, he.crcAcc_frame, he.dec_frame, he.result_frame, he.txBuf_frame,
    he.rxFifo_frame, he.lineTx_frame, he.phase_frame, he.outcome_frame⟩

/-- Settles O54. -/
theorem phasesWriteOnlyTheirRegisters : Obligations.PhasesWriteOnlyTheirRegisters := by
  intro s t h
  have hb := (blockStep_next_cases h).effect
  obtain ⟨hAcc, hAddr, hWr, hBlk, hTx, hLatch, hOpen, hSched, hData⟩ := hb.frame
  exact ⟨hAcc, hAddr, hWr, hBlk, hTx, hLatch, hOpen, hSched, hData,
    fun hp => hb.crcPair_frame (.inl hp), fun ho => hb.crcPair_frame (.inr ho)⟩

/-- Settles O19: of the movers, only a command word and the reset input touch `CRC_ACC`, and of the
commands only CRC.INIT and CRC.BYTE. -/
theorem crcAccWrittenOnlyByItsCommands : Obligations.CrcAccWrittenOnlyByItsCommands := by
  intro s t h hne
  cases step_next_kind h with
  | block hb => exact absurd hb.frame.1 hne
  | command hs hd he =>
    cases he with
    | crcInit =>
      obtain rfl := eq_zero_of_decodeCommand_crcInit hd
      exact .inl ⟨_, hs, rfl⟩
    | crcByte =>
      obtain ⟨hc, rfl⟩ := selects_of_decodeCommand_crcByte hd
      exact .inr (.inl ⟨_, _, hs, hc, rfl⟩)
    | _ => exact absurd (by simp) hne
  | illegal => exact absurd rfl hne
  | outside => exact absurd rfl hne
  | reset hs => exact .inr (.inr ⟨_, _, hs, rfl⟩)

end Sys2Proof.Machine
end

section
/-! How `LINE_TX`, `RXFIFO` and `PHASE` change in a step: first for the block's move, then, with the
lemmas on the instructions in StepEffects, for every step. -/

namespace Sys2Proof.Machine

/-! ## The block's move -/

section
variable {s t : State}

theorem BlockEffect.lineTx_change (h : BlockEffect s t) :
    t.lineTx = s.lineTx ∨
      (s.phase = .tx ∧ t.phase = .settle ∧ t.lineTx = s.lineTx ++ s.txBuf) := by
  cases h with
  | sent hp => exact .inr ⟨hp, rfl, rfl⟩
  | _ => exact .inl rfl

/-- Only phase RX takes from `RXFIFO`, one byte; the other phases keep `RXBUF` or withhold it. -/
theorem BlockEffect.rx_change (h : BlockEffect s t) :
    (t.rxFifo = s.rxFifo ∧ (t.rxBuf = s.rxBuf ∨ t.rxBuf = [])) ∨
    (s.phase = .rx ∧ ∃ b, s.rxFifo = b :: t.rxFifo ∧ t.rxBuf = s.rxBuf ++ [b]) := by
  cases h with
  | taken hp hf => exact .inr ⟨hp, _, hf, rfl⟩
  | overflowed => exact .inl ⟨rfl, .inr rfl⟩
  | unanswered => exact .inl ⟨rfl, .inr rfl⟩
  | mismatched => exact .inl ⟨rfl, .inr rfl⟩
  | _ => exact .inl ⟨rfl, .inl rfl⟩

/-- The order of the phases (rules R92 to R95). -/
theorem BlockEffect.phase_change (h : BlockEffect s t) (hn : t.phase ≠ s.phase) :
    (s.phase = .tx ∧ t.phase = .settle) ∨
    (s.phase = .settle ∧ t.phase = .rx) ∨
    (s.phase = .rx ∧ t.phase = .check ∧ s.rxFifo = []) ∨
    (s.phase = .rx ∧ t.phase = .idle ∧ t.code = .rxOverflow) ∨
    (s.phase = .check ∧ t.phase = .idle ∧ t.done = true) := by
  cases h with
  | idle => exact absurd rfl hn
  | sent hp => exact .inl ⟨hp, rfl⟩
  | settled hp => exact .inr (.inl ⟨hp, rfl⟩)
  | drained hp hf => exact .inr (.inr (.inl ⟨hp, rfl, hf⟩))
  | overflowed hp => exact .inr (.inr (.inr (.inl ⟨hp, rfl, rfl⟩)))
  | taken => exact absurd rfl hn
  | unjudged hp => exact .inr (.inr (.inr (.inr ⟨hp, rfl, rfl⟩)))
  | unanswered hp => exact .inr (.inr (.inr (.inr ⟨hp, rfl, rfl⟩)))
  | matched hp => exact .inr (.inr (.inr (.inr ⟨hp, rfl, rfl⟩)))
  | mismatched hp => exact .inr (.inr (.inr (.inr ⟨hp, rfl, rfl⟩)))

end

/-! ## The reset input (rule R130) -/

/-- In phase TX the line has a beginning of the frame, in every other phase nothing new. -/
theorem State.resetBlock_lineTx_cases (sent : Nat) (s : State) :
    (s.resetBlock sent).lineTx = s.lineTx ∨
      (s.phase = .tx ∧ (s.resetBlock sent).lineTx = s.lineTx ++ s.txBuf.take sent) := by
  by_cases hp : s.phase = .tx
  · exact .inr ⟨hp, by simp [State.sentAtReset, hp]⟩
  · exact .inl (by simp [State.sentAtReset, hp])

/-! ## The obligations -/

/-- Settles O58, by the kind of the step's mover. -/
theorem lineTxGrowsOnlyByFrames : Obligations.LineTxGrowsOnlyByFrames := by
  intro s t h
  cases step_next_kind h with
  | block hb => exact hb.lineTx_change.imp_right .inl
  | command _ _ he => exact he.lineTx_change.imp_right .inl
  | illegal => exact .inl rfl
  | outside => exact .inl rfl
  | @reset sent rest hs =>
    exact ((s.withSchedule rest).resetBlock_lineTx_cases sent).imp_right
      fun hl => .inr ⟨sent, rest, hs, hl⟩

/-- Settles O59, by the kind of the step's mover. -/
theorem rxFifoIsAQueue : Obligations.RxFifoIsAQueue := by
  intro s t h
  cases step_next_kind h with
  | block hb =>
    refine hb.rx_change.imp_left ?_
    rintro ⟨hf, hr⟩
    exact ⟨[], by simpa using hf, hr⟩
  | command _ _ he => exact .inl he.rx_change
  | illegal => exact .inl ⟨[], by simp, .inl rfl⟩
  | outside hf => exact .inl ⟨_, hf, .inl rfl⟩
  | reset => exact .inl ⟨[], by simp, .inr rfl⟩

/-- Settles O60, by the kind of the step's mover. -/
theorem phaseOrder : Obligations.PhaseOrder := by
  intro s t h hn
  cases step_next_kind h with
  | block hb =>
    rcases hb.phase_change hn with hc | hc | hc | hc | hc
    · exact .inr (.inl hc)
    · exact .inr (.inr (.inl hc))
    · exact .inr (.inr (.inr (.inl hc)))
    · exact .inr (.inr (.inr (.inr (.inl hc))))
    · exact .inr (.inr (.inr (.inr (.inr (.inl hc)))))
  | command hs _ he =>
    rcases he.phase_change hn with ⟨hi, ht⟩ | hc
    · exact .inl ⟨hi, ht, _, _, hs⟩
    · exact .inr (.inl hc)
  | illegal => exact absurd rfl hn
  | outside => exact absurd rfl hn
  | reset hs => exact .inr (.inr (.inr (.inr (.inr (.inr ⟨rfl, _, _, hs⟩)))))

/-- Settles O56. -/
theorem deliveryIsAlwaysEnabled : Obligations.DeliveryIsAlwaysEnabled := by
  intro s rest
  refine ⟨fun bytes hs => ?_, fun n hs => ⟨endlessDelivery_ne_nil n, ?_⟩, fun e0 e1 e2 payload c => ?_⟩
  · rw [step, hs]
    exact deliverBytes_eq bytes _
  · rw [step, hs]
    rfl
  · simp [exec, execFrameRsp, State.deliver]

end Sys2Proof.Machine
end

section
/-! The host's register port (rule R21), the numbers behind `STATUS`, `PHASE` and `OP_LATCH`, and the
step as the run of a decoded instruction. -/

namespace Sys2Proof.Machine

/-! ## What a register number reads -/

/-- `DEC` as the number its three fields make (rule R21). -/
theorem joinAddr_toNat : ∀ (blk : Bool) (addr : BitVec 6) (wr : Bool),
    (joinAddr blk addr wr).toNat =
      (if blk then 128 else 0) + 2 * addr.toNat + (if wr then 1 else 0) := by decide

/-- `inRxWindow` is the test that `0x1000 + i` is in the table of rule R21. -/
theorem inRxWindow_iff (i : Nat) :
    inRxWindow i = true ↔ ∀ cap, Config.rxCap = some cap → i < cap := by
  unfold inRxWindow Config.rxCap
  cases Config.rxCapExcess with
  | none => simp
  | some k => simp; omega

theorem inRxWindow_eq_false {i cap : Nat} (hc : Config.rxCap = some cap) (hi : cap ≤ i) :
    inRxWindow i = false :=
  Bool.eq_false_iff.2 fun h => Nat.not_lt.2 hi ((inRxWindow_iff i).1 h cap hc)

section
variable (s : State)

theorem readRegister_txBuf {i : Nat} (hi : i < 4) :
    s.readRegister (0x10 + i) = (s.txBuf[i]?).map BitVec.toNat := by
  simp (disch := omega) only [State.readRegister, if_neg, if_pos, State.readTxBuf,
    Nat.add_sub_cancel_left]

theorem readRegister_rxBuf (i : Nat) : s.readRegister (0x1000 + i) = s.readRxBuf i := by
  simp (disch := omega) only [State.readRegister, if_neg, if_pos, Nat.add_sub_cancel_left]

/-- The gap below `TXBUF` and the gap between `TXBUF` and `RXBUF` (rule R21). -/
theorem readRegister_gap {n : Nat} (hn : (0x08 < n ∧ n < 0x10) ∨ (0x13 < n ∧ n < 0x1000)) :
    s.readRegister n = some 0 := by
  simp (disch := omega) only [State.readRegister, if_neg]

end

/-! ## The host's moves -/

theorem step_of_hostRead {s : State} {n : Nat} {rest : List Event}
    (hs : s.schedule = .hostRead n :: rest) : step s = hostRead n (s.withSchedule rest) := by
  rw [step, hs]; rfl

theorem step_hostRead_some {s : State} {n v : Nat} {rest : List Event}
    (hs : s.schedule = .hostRead n :: rest) (hv : s.readRegister n = some v) :
    step s = .next { s with schedule := rest, hostData := v } := by
  have hw : (s.withSchedule rest).readRegister n = some v := hv
  rw [step_of_hostRead hs, hostRead, hw]; rfl

theorem step_hostRead_none {s : State} {n : Nat} {rest : List Event}
    (hs : s.schedule = .hostRead n :: rest) (hv : s.readRegister n = none) :
    step s = .refused .readWithoutMeaning := by
  have hw : (s.withSchedule rest).readRegister n = none := hv
  rw [step_of_hostRead hs, hostRead, hw]

/-- A write past `CMD` is ignored (rule R21). -/
theorem step_hostWrite_ignored {s : State} {n : Nat} {w : Word} {rest : List Event}
    (hs : s.schedule = .hostWrite n w :: rest) (hn : n ≠ 0x00) :
    step s = .next { s with schedule := rest } := by
  rw [step, hs]
  exact if_neg hn

/-! ## The step as the run of a decoded instruction -/

/-- In phase TX the block runs the request that `TXBUF` holds (rule R92). -/
theorem blockStep_of_request {s : State} {i : Instr} (hp : s.phase = .tx)
    (hd : decodeRequest s.txBuf = .ok i) : blockStep s = exec i s := by
  simp only [blockStep, hp, hd]

/-! ## The obligations -/

/-- Settles O1: the reset state is a literal, and the statement is read off it. -/
theorem resetRegisterValues : Obligations.ResetRegisterValues := by
  unfold Obligations.ResetRegisterValues
  decide

/-- Settles O5: the five fields of the word do not overlap. -/
theorem statusWordLayout : Obligations.StatusWordLayout := by
  intro s
  refine ⟨?_, ?_, ?_, ?_, ?_, ?_, rfl, rfl, rfl, rfl, rfl, rfl⟩
  case refine_5 =>
    ext i hi
    simp [State.status, State.busy]
    grind
  all_goals simp [State.status, State.busy]

/-- Settles O6. -/
theorem phaseAndLatchNumbers : Obligations.PhaseAndLatchNumbers := by
  refine ⟨rfl, rfl, rfl, rfl, rfl, fun p => ?_, rfl, rfl, rfl, rfl⟩
  cases p <;> decide

/-- Settles O7. -/
theorem hostRegisterPort : Obligations.HostRegisterPort := by
  intro s rest
  refine ⟨⟨rfl, rfl, rfl, rfl, rfl, rfl, rfl, ?_, rfl⟩, fun i b hi hb => ?_,
    fun i b hv hb hw => ?_, fun i cap hc hi => ?_, fun n hl hu => readRegister_gap s (.inl ⟨hl, hu⟩),
    fun n hl hu => readRegister_gap s (.inr ⟨hl, hu⟩), fun n v hs hv => step_hostRead_some hs hv,
    fun n w hs hn => step_hostWrite_ignored hs ?_⟩
  · exact congrArg some (joinAddr_toNat s.decBlk s.decAddr s.decWr)
  · simp [readRegister_txBuf s hi, hb]
  · simp [readRegister_rxBuf, State.readRxBuf, (inRxWindow_iff i).2 hw, hv, hb]
  · simp [readRegister_rxBuf, State.readRxBuf, inRxWindow_eq_false hc hi]
  · rcases hn with hn | hn | ⟨i, rfl, -⟩ <;> omega

/-- Settles O8. -/
theorem unreadableBufferByteRefused : Obligations.UnreadableBufferByteRefused := by
  intro s i rest
  refine ⟨fun hi hl hs => step_hostRead_none hs ?_, fun hw hm hs => step_hostRead_none hs ?_⟩
  · simp [readRegister_txBuf s hi, hl]
  · rw [readRegister_rxBuf, State.readRxBuf, if_pos ((inRxWindow_iff i).2 hw)]
    rcases hm with hv | hl
    · simp [hv]
    · simp [hl]

/-- Settles O32: one clause for each of the three places an instruction is presented. -/
theorem stepRunsDecodedInstruction : Obligations.StepRunsDecodedInstruction := by
  intro s rest i
  refine ⟨fun c hs hd => ?_, fun hs hp hd => ?_, fun hs hp hd => ?_, fun bytes hs hd => ?_⟩
  · simp only [step, hs, moveEvent, hostWrite, if_true, presentCommand, hd]
    rfl
  · rw [step, hs]
    exact blockStep_of_request (s := s.withSchedule rest) hp hd
  · rw [step, hs]
    exact blockStep_of_request hp hd
  · simp only [step, hs, moveEvent, deliverBytes, hd]
    rfl

end Sys2Proof.Machine
end

section
/-! The parts of a response (rules R42, R52, R85), for every trailing byte; the conforming response is
the one whose trailing byte is the checksum. -/

namespace Sys2Proof.Machine

/-! ## The response `echo ++ payload ++ [c]` -/

section
variable {echo : List Byte} (he : echo.length = Config.echoLen) (payload : List Byte) (c : Byte)
include he

theorem length_parts : (echo ++ payload ++ [c]).length = payload.length + 4 := by
  rw [List.length_append, List.length_append, List.length_singleton, he, Config.echoLen]
  omega

theorem parseResponse_parts :
    parseResponse (echo ++ payload ++ [c]) = some { echo := echo, payload := payload, crc := c } := by
  have hl : ¬(echo ++ payload ++ [c]).length < 4 := by
    rw [length_parts he]
    exact Nat.not_lt.2 (Nat.le_add_left ..)
  rw [parseResponse, if_neg hl, List.getLast?_concat, List.dropLast_concat, List.drop_left' he,
    List.append_assoc, List.take_left' he]

/-- The bound `k < len(s) - 4` of rule R42 is the payload's length: it keeps the CRC byte out. -/
theorem payloadByte_parts (k : Nat) : payloadByte (echo ++ payload ++ [c]) k = payload[k]? := by
  have hl : k + 4 < (echo ++ payload ++ [c]).length ↔ k < payload.length := by
    rw [length_parts he, Nat.add_lt_add_iff_right]
  by_cases hk : k < payload.length
  · rw [payloadByte, if_pos (hl.2 hk), ← he, List.append_assoc,
      List.getElem?_append_right (Nat.le_add_right ..), Nat.add_sub_cancel_left,
      List.getElem?_append_left hk]
  · rw [payloadByte, if_neg (mt hl.1 hk), List.getElem?_eq_none (Nat.le_of_not_lt hk)]

end

theorem parseResponse_of_short {s : List Byte} (h : s.length < 4) : parseResponse s = none :=
  if_pos h

@[simp] theorem crcOk_conformingResponse (echo payload : List Byte) :
    crcOk (conformingResponse echo payload) = true := by
  rw [conformingResponse, crcOk_concat, beq_self_eq_true]

/-! ## The obligation -/

/-- Settles O24: the conforming response is the case of the laws above whose last byte is the checksum
of the rest. -/
theorem conformingResponseParses : Obligations.ConformingResponseParses :=
  ⟨fun _ payload he => ⟨parseResponse_parts he payload _, crcOk_conformingResponse _ payload,
    payloadByte_parts he payload _⟩, fun _ => parseResponse_of_short⟩

end Sys2Proof.Machine
end

section
/-! Encodings (rules R50 to R57): decoding undoes encoding and encoding undoes decoding, the rows of rule
R55 by the fields of the word, and the frame that `encode_request` builds. -/

namespace Sys2Proof

open Sys2Proof.Machine

/-! ## Encoding, then decoding -/

/-- What `WellFormed` asks of an operand: the 8-bit field brings it back. -/
theorem toNat_ofNat_of_fitsField {n : Nat} (h : fitsField n = true) : (BitVec.ofNat 8 n).toNat = n := by
  rw [BitVec.toNat_ofNat]
  exact Nat.mod_eq_of_lt (Nat.lt_succ_of_le (of_decide_eq_true h))

/-- The check that the commands with three operands share. -/
theorem toNat_ofNat_of_fitsFields {a r v : Nat}
    (h : (fitsField a && fitsField r && fitsField v) = true) :
    (BitVec.ofNat 8 a).toNat = a ∧ (BitVec.ofNat 8 r).toNat = r ∧ (BitVec.ofNat 8 v).toNat = v := by
  simp only [Bool.and_eq_true] at h
  obtain ⟨⟨ha, hr⟩, hv⟩ := h
  exact ⟨toNat_ofNat_of_fitsField ha, toNat_ofNat_of_fitsField hr, toNat_ofNat_of_fitsField hv⟩

@[simp] theorem decodeRequest_read (a : BitVec 6) (r n : Byte) :
    decodeRequest [joinAddr false a false, r, n] = .ok (.frameRdReq a r n) := by
  simp [decodeRequest]

@[simp] theorem decodeRequest_write (a : BitVec 6) (r v c : Byte) :
    decodeRequest [joinAddr false a true, r, v, c] = .ok (.frameWrReq a r v c) := by
  simp [decodeRequest]

/-- The command of a row selects it: `SelectsOwnRow` with the word read off. -/
theorem selects_of_commandIn {row : Row} {c : Word} (h : Laws.commandIn row (.command c)) :
    row.selects c = true := by
  obtain ⟨_, ⟨⟩, hs⟩ := h
  exact hs

/-- Settles O25: the encoding of a command selects the row of its mnemonic, whose decoder reads the fields
back; the frames are put together and taken apart at the same places. -/
theorem decodeOfEncode : Obligations.DecodeOfEncode := by
  intro i hwf
  cases i with
  | crcInit => exact decodeCommand_crcInit (selects_of_commandIn Laws.SelectsOwnRow.crcInit)
  | crcByte b =>
    refine (decodeCommand_crcByte (selects_of_commandIn (Laws.SelectsOwnRow.crcByte b))).trans ?_
    rw [vField_commandWord]
  | enc a r v w =>
    obtain ⟨ha, hr, hv⟩ := toNat_ofNat_of_fitsFields hwf
    refine (decodeCommand_enc (selects_of_commandIn (Laws.SelectsOwnRow.enc a r v w))).trans ?_
    simp only [aField_commandWord, rField_commandWord, vField_commandWord, wField_commandWord, ha, hr, hv]
  | dec b =>
    refine (decodeCommand_dec (selects_of_commandIn (Laws.SelectsOwnRow.dec b))).trans ?_
    rw [vField_commandWord]
  | rd a r n =>
    obtain ⟨ha, hr, hn⟩ := toNat_ofNat_of_fitsFields hwf
    refine (decodeCommand_rd (selects_of_commandIn (Laws.SelectsOwnRow.rd a r n))).trans ?_
    simp only [aField_commandWord, rField_commandWord, vField_commandWord, ha, hr, hn]
  | rdnc a r n =>
    obtain ⟨ha, hr, hn⟩ := toNat_ofNat_of_fitsFields hwf
    refine (decodeCommand_rdnc (selects_of_commandIn (Laws.SelectsOwnRow.rdnc a r n))).trans ?_
    simp only [aField_commandWord, rField_commandWord, vField_commandWord, ha, hr, hn]
  | wr a r v =>
    obtain ⟨ha, hr, hv⟩ := toNat_ofNat_of_fitsFields hwf
    refine (decodeCommand_wr (selects_of_commandIn (Laws.SelectsOwnRow.wr a r v))).trans ?_
    simp only [aField_commandWord, rField_commandWord, vField_commandWord, ha, hr, hv]
  | frameRdReq a r n => exact decodeRequest_read a r n
  | frameWrReq a r v c => exact decodeRequest_write a r v c
  | frameRsp e0 e1 e2 payload c => exact decodeResponse_concat e0 e1 e2 c payload

/-! ## Decoding, then encoding -/

/-- A word with `RSV = 0` is built from its fields (rule R54), the fields that a row fixes given by their
values. -/
theorem commandWord_of_fields {c : Word} {op : BitVec 4} {w : Bool} {a r v : Byte}
    (ho : opField c = op) (hrsv : c.extractLsb' 25 3 = 0) (hw : wField c = w) (ha : aField c = a)
    (hr : rField c = r) (hv : vField c = v) : commandWord op w a r v = c := by
  subst ho hw ha hr hv
  exact commandWord_fields c hrsv

/-- Every row checks all the bits of the word that are no operand, so the operands give the word back. -/
theorem encode_of_decodeCommand {c : Word} {i : Instr} (h : decodeCommand c = .ok i) :
    encode i = .command c := by
  rcases decodeCommand_ok h with ⟨hs, rfl⟩ | ⟨hs, rfl⟩ | ⟨hs, rfl⟩ | ⟨hs, rfl⟩ | ⟨hs, rfl⟩ | ⟨hs, rfl⟩ |
    ⟨hs, rfl⟩ <;> simp only [encode, BitVec.ofNat_toNat, BitVec.setWidth_eq] <;>
    refine congrArg Pattern.command ?_
  · rw [(selects_crcInit_iff c).1 hs]; decide
  · obtain ⟨ho, hrsv, hw, ha, hr⟩ := (selects_crcByte_iff c).1 hs
    exact commandWord_of_fields ho hrsv hw ha hr rfl
  · obtain ⟨ho, hrsv⟩ := (selects_enc_iff c).1 hs
    exact commandWord_of_fields ho hrsv rfl rfl rfl rfl
  · obtain ⟨ho, hrsv, hw, ha, hr⟩ := (selects_dec_iff c).1 hs
    exact commandWord_of_fields ho hrsv hw ha hr rfl
  · obtain ⟨ho, hrsv, hw⟩ := (selects_rd_iff c).1 hs
    exact commandWord_of_fields ho hrsv hw rfl rfl rfl
  · obtain ⟨ho, hrsv, hw⟩ := (selects_rdnc_iff c).1 hs
    exact commandWord_of_fields ho hrsv hw rfl rfl rfl
  · obtain ⟨ho, hrsv, hw⟩ := (selects_wr_iff c).1 hs
    exact commandWord_of_fields ho hrsv hw rfl rfl rfl

/-- Settles O26, by the three kinds of pattern. -/
theorem encodeOfDecode : Obligations.EncodeOfDecode := by
  intro p i h
  cases p with
  | command c => exact encode_of_decodeCommand h
  | request bytes =>
    rcases decodeRequest_ok h with ⟨a, r, n, rfl, rfl⟩ | ⟨a, r, v, c, rfl, rfl⟩
    · rfl
    · rfl
  | response bytes =>
    obtain ⟨e0, e1, e2, payload, c, rfl, rfl⟩ := decodeResponse_ok h
    rfl

/-! ## The rows (rule R55) -/

/-- The rows have different opcodes. -/
theorem row_eq_of_opField : ∀ x ∈ commandRows, ∀ y ∈ commandRows,
    opField x.pattern = opField y.pattern → x = y := by decide

theorem decodeCommand_ok_iff_selects (c : Word) :
    (∃ i, decodeCommand c = .ok i) ↔ ∃ row ∈ commandRows, row.selects c = true := by
  constructor
  · rintro ⟨i, h⟩
    rcases decodeCommand_ok h with ⟨hs, -⟩ | ⟨hs, -⟩ | ⟨hs, -⟩ | ⟨hs, -⟩ | ⟨hs, -⟩ | ⟨hs, -⟩ | ⟨hs, -⟩ <;>
      exact ⟨_, by simp [commandRows], hs⟩
  · rintro ⟨row, hr, hs⟩
    cases h : decodeCommand c with
    | ok i => exact ⟨i, rfl⟩
    | error e => rw [(decodeCommand_error h).1 row hr] at hs; cases hs

theorem decodeCommand_error_iff_selects (c : Word) :
    (∃ e, decodeCommand c = .error e) ↔ ¬∃ row ∈ commandRows, row.selects c = true := by
  rw [← decodeCommand_ok_iff_selects]
  cases decodeCommand c <;> simp

/-- Settles O28: a selected row fixes the opcode, and no two rows have the same. -/
theorem rowsPartitionTheAcceptedWords : Obligations.RowsPartitionTheAcceptedWords :=
  ⟨fun _ x y hx hy hsx hsy => row_eq_of_opField x hx y hy
    ((opField_of_selects hx hsx).symm.trans (opField_of_selects hy hsy)), decodeCommand_ok_iff_selects⟩

/-! ## The illegal words by field (rules R54, R57) -/

/-- The one word of CRC.INIT in the terms of the fields. -/
theorem eq_zero_iff_fields (c : Word) : c = 0 ↔
    opField c = 0 ∧ c.extractLsb' 25 3 = 0 ∧ wField c = false ∧ aField c = 0 ∧ rField c = 0 ∧
      vField c = 0 := by
  constructor
  · rintro rfl
    decide
  · rintro ⟨ho, hrsv, hw, ha, hr, hv⟩
    rw [← commandWord_of_fields ho hrsv hw ha hr hv]
    decide

/-- An opcode is reserved, or that of one of the seven rows. -/
theorem opcode_cases : ∀ op : BitVec 4,
    7 ≤ op.toNat ∨ op = 0 ∨ op = 1 ∨ op = 2 ∨ op = 3 ∨ op = 4 ∨ op = 5 ∨ op = 6 := by decide

/-- The words that select a row: each row by the fields it fixes. -/
theorem exists_selects_iff (c : Word) : (∃ row ∈ commandRows, row.selects c = true) ↔
    (opField c = 0 ∧ c.extractLsb' 25 3 = 0 ∧ wField c = false ∧ aField c = 0 ∧ rField c = 0 ∧
      vField c = 0) ∨
    (opField c = 1 ∧ c.extractLsb' 25 3 = 0 ∧ wField c = false ∧ aField c = 0 ∧ rField c = 0) ∨
    (opField c = 2 ∧ c.extractLsb' 25 3 = 0) ∨
    (opField c = 3 ∧ c.extractLsb' 25 3 = 0 ∧ wField c = false ∧ aField c = 0 ∧ rField c = 0) ∨
    (opField c = 4 ∧ c.extractLsb' 25 3 = 0 ∧ wField c = false) ∨
    (opField c = 5 ∧ c.extractLsb' 25 3 = 0 ∧ wField c = false) ∨
    (opField c = 6 ∧ c.extractLsb' 25 3 = 0 ∧ wField c = false) := by
  simp only [commandRows, List.mem_cons, List.not_mem_nil, or_false, exists_eq_or_imp, exists_eq_left,
    selects_crcInit_iff, eq_zero_iff_fields, selects_crcByte_iff, selects_enc_iff, selects_dec_iff,
    selects_rd_iff, selects_rdnc_iff, selects_wr_iff]

/-- Settles O27: with the opcode known, a word is illegal exactly when its row fixes a field that it has
otherwise. -/
theorem illegalWordsByField : Obligations.IllegalWordsByField := by
  intro c
  rw [decodeCommand_error_iff_selects, exists_selects_iff]
  change _ ↔ 7 ≤ (opField c).toNat ∨ c.extractLsb' 25 3 ≠ 0 ∨ (wField c = true ∧ opField c ≠ 2) ∨
    ((opField c = 0 ∨ opField c = 1 ∨ opField c = 3) ∧ (aField c ≠ 0 ∨ rField c ≠ 0)) ∨
    (opField c = 0 ∧ vField c ≠ 0)
  rcases opcode_cases (opField c) with hres | ho | ho | ho | ho | ho | ho | ho
  · have hne : ∀ op : BitVec 4, op.toNat < 7 → opField c ≠ op := by
      rintro op hlt rfl
      exact absurd hres (Nat.not_le.2 hlt)
    simp [hne, hres]
  all_goals simp [ho, imp_iff_not_or, or_assoc]

/-! ## The built frame (rules R80, R96, R98) -/

/-- Settles O31. -/
theorem builtFrameIsTheWireRow : Obligations.BuiltFrameIsTheWireRow := by
  intro a r v w f h
  obtain ⟨ha, -, -, rfl⟩ := encodeRequest_some h
  rw [requestHead, addressByte_eq_joinAddr a w ha]
  cases w with
  | false => exact ⟨_, decodeRequest_read .., rfl, rfl⟩
  | true => exact ⟨_, decodeRequest_write .., beq_self_eq_true _, rfl⟩

/-- Settles O29. -/
theorem sampleWordsDecode : Obligations.SampleWordsDecode := by
  unfold Obligations.SampleWordsDecode
  decide

end Sys2Proof
end

section
/-! Placing a pattern (log 18) and presenting a command: the very next step runs the instruction. The
request frames in phase TX, `WAIT`, and the pseudo-instruction `CHECKSUM`. -/

namespace Sys2Proof.Machine

/-! ## Placed patterns -/

/-- The step takes a placed pattern off the schedule and runs its instruction. -/
theorem step_place {s : State} {p : Pattern} {i : Instr} (h : decode p = .ok i) :
    step (s.place p) = exec i ((s.place p).withSchedule s.schedule) := by
  obtain ⟨hc, ht, -, hr⟩ := stepRunsDecodedInstruction (s.place p) s.schedule i
  cases p with
  | command c => exact hc c rfl h
  | request bytes => exact ht rfl rfl h
  | response bytes => exact hr bytes rfl h

/-- Settles O33: the schedule is restored by the step, so a placed word or response leaves no trace in
the state that its instruction is run in. -/
theorem placedPatternRunsNext : Obligations.PlacedPatternRunsNext := by
  intro s i
  exact ⟨fun c h => step_place (p := .command c) h, fun bytes h => step_place (p := .response bytes) h,
    fun bytes h => ⟨step_place (p := .request bytes) h, _,
      (step_place (p := .request bytes) h).trans (exec_of_txBuf rfl h), rfl⟩⟩

/-- A command runs in an idle block with the transport open: nothing refuses it. -/
theorem exec_command_total {s : State} {c : Word} {i : Instr} (hp : s.phase = .idle)
    (ho : s.transportOpen = true) (h : decodeCommand c = .ok i) : ∃ t, exec i s = .next t := by
  have trans : ∀ op a r v, ∃ t, execTransaction op a r v s = .next t := fun op a r v =>
    ⟨s.acceptTransaction op a r v, by simp [execTransaction, hp, ho]⟩
  have enc : ∀ a r v w, ∃ t, exec (.enc a r v w) s = .next t := by
    intro a r v w
    rw [exec, execEnc, whenIdle_of_idle hp]
    cases encodeRequest a r v w with
    | none => exact ⟨_, rfl⟩
    | some f => exact ⟨_, rfl⟩
  rcases decodeCommand_ok h with ⟨-, rfl⟩ | ⟨-, rfl⟩ | ⟨-, rfl⟩ | ⟨-, rfl⟩ | ⟨-, rfl⟩ | ⟨-, rfl⟩ | ⟨-, rfl⟩
  · exact ⟨_, whenIdle_of_idle hp _⟩
  · exact ⟨_, whenIdle_of_idle hp _⟩
  · exact enc ..
  · exact ⟨_, whenIdle_of_idle hp _⟩
  · exact trans ..
  · exact trans ..
  · exact trans ..

/-- A placed pattern of any kind runs to a next state when the block is idle with its transport open. -/
theorem exec_placed_total {s : State} {p : Pattern} {i : Instr} (es : List Event)
    (hp : s.phase = .idle) (ho : s.transportOpen = true) (h : decode p = .ok i) :
    ∃ t, exec i ((s.place p).withSchedule es) = .next t := by
  cases p with
  | command c => exact exec_command_total hp ho h
  | request bytes => exact ⟨_, exec_of_txBuf rfl h⟩
  | response bytes =>
    obtain ⟨e0, e1, e2, payload, c, rfl, -⟩ := decodeResponse_ok h
    exact ⟨_, rfl⟩

theorem decode_of_decodeTableWord {nbits w : Nat} {i : Instr} (h : decodeTableWord nbits w = some i) :
    decode (patternOf nbits w) = .ok i := by
  unfold decodeTableWord at h
  cases hd : decode (patternOf nbits w) with
  | ok j => simpa [hd] using h
  | error e => simp [hd] at h

/-- Settles O34: the reset state is idle with its transport open. -/
theorem everyTableWordRunsFromReset : Obligations.EveryTableWordRunsFromReset := by
  intro nbits w i h
  have hd := decode_of_decodeTableWord h
  have hs : step (State.reset.withFetchWord nbits w) =
      exec i ((State.reset.place (patternOf nbits w)).withSchedule []) := step_place hd
  exact ⟨hs ▸ exec_placed_total [] rfl rfl hd, hd, hs⟩

/-! ## Request frames (rules R50, R92, R124) -/

theorem sendFrame_of_tx {f : List Byte} {s : State} (hp : s.phase = .tx) (hf : s.txBuf = f) :
    sendFrame f s = .next s.transmit := if_pos ⟨hp, hf⟩

theorem sendFrame_refused {f : List Byte} {s : State} (h : s.phase ≠ .tx ∨ s.txBuf ≠ f) :
    sendFrame f s = .refused .frameNotInTransmission := if_neg (not_and_or.2 h)

/-- Settles O55. -/
theorem requestFrameGoesOut : Obligations.RequestFrameGoesOut := fun _ =>
  ⟨fun _ _ _ hp hf => sendFrame_of_tx hp hf, fun _ _ _ _ hp hf => sendFrame_of_tx hp hf,
    fun _ _ _ h => sendFrame_refused h, fun _ _ _ _ h => sendFrame_refused h⟩

/-! ## `WAIT` (rule R61) -/

/-- Settles O35. -/
theorem hostWaitsForDone : Obligations.HostWaitsForDone := by
  intro s rest hs
  have hstep : step s = if s.done then hostRead 0x01 (s.withSchedule rest) else blockStep s := by
    rw [step, hs]; rfl
  refine ⟨fun hd => ?_, fun hd => ?_⟩
  · rw [hstep, if_pos hd]; rfl
  · rw [hstep, if_neg (by simp [hd])]

/-! ## `CHECKSUM` (rules R61, R72 to R74) -/

/-- The host's presentation of a well-formed command is run by the next step (rule R54). -/
theorem step_presentEvents {s : State} {i : Instr} {c : Word} {rest : List Event} (hwf : i.WellFormed)
    (hc : encode i = .command c) (hs : s.schedule = presentEvents i ++ rest) :
    step s = exec i (s.withSchedule rest) := by
  have hd : decode (.command c) = .ok i := hc ▸ decodeOfEncode i hwf
  rw [presentEvents, hc] at hs
  exact (stepRunsDecodedInstruction s rest i).1 c hs hd

theorem step_of_crcInit {s : State} {es : List Event} (hp : s.phase = .idle)
    (hs : s.schedule = presentEvents .crcInit ++ es) :
    step s = .next ((s.withSchedule es).setCrcAcc Config.crcInit).finishOk :=
  (step_presentEvents rfl rfl hs).trans (whenIdle_of_idle hp _)

theorem step_of_crcByte {s : State} {b : Byte} {es : List Event} (hp : s.phase = .idle)
    (hs : s.schedule = presentEvents (.crcByte b) ++ es) :
    step s = .next ((s.withSchedule es).setCrcAcc (crcByte s.crcAcc b)).finishOk :=
  (step_presentEvents rfl rfl hs).trans (whenIdle_of_idle hp _)

/-- The CRC.BYTE commands of a list of bytes fold them into `CRC_ACC`, one step each (rule R74). -/
theorem runSteps_crcBytes (bytes : List Byte) {s : State} {rest : List Event} (hp : s.phase = .idle)
    (hs : s.schedule = (bytes.map Instr.crcByte).flatMap presentEvents ++ rest) :
    runSteps bytes.length s.finishOk =
      .next ((s.withSchedule rest).setCrcAcc (crcFold s.crcAcc bytes)).finishOk := by
  induction bytes generalizing s with
  | nil =>
    obtain rfl : s.schedule = rest := hs
    rfl
  | cons b bytes ih =>
    rw [List.map_cons, List.flatMap_cons, List.append_assoc] at hs
    have hstep := step_of_crcByte (s := s.finishOk) hp hs
    exact (runSteps_succ_of_step hstep _).trans (ih (s := State.setCrcAcc _ (s.withSchedule _)) hp rfl)

/-- Settles O18: CRC.INIT starts the fold of rule R71, and CRC.BYTE goes on with it. -/
theorem checksumProgramCompletes : Obligations.ChecksumProgramCompletes := by
  intro s bytes rest hp hs
  rw [checksumProgram, List.flatMap_cons, List.append_assoc] at hs
  have hstep := step_of_crcInit hp hs
  exact (runSteps_succ_of_step hstep _).trans
    (runSteps_crcBytes bytes (s := State.setCrcAcc _ (s.withSchedule _)) hp rfl)

/-! ## Examples (rule R60) -/

/-- Settles O30. -/
theorem assemblerExamples : Obligations.AssemblerExamples := by
  unfold Obligations.AssemblerExamples
  decide

end Sys2Proof.Machine
end

section
/-! The laws of the CRC functions (40_crc.md): the table, and the laws of rule R75. Each shift step is linear
with kernel zero, and the laws follow from that. -/

namespace Sys2Proof.Machine

/-! ## The byte step (rules R70, R77) -/

/-- The table of 95_test_vectors.md section 2.3 is the eight shifts of every byte, in order. -/
theorem crcTable_eq_map : crcTable = (List.range 256).map fun n => crcShifts 8 (BitVec.ofNat 8 n) := by
  decide +kernel

@[simp] theorem crcByte_self (b : Byte) : crcByte b b = 0#8 := by
  rw [crcByte, BitVec.xor_self, crcShifts_zero]

theorem crcByte_xor_xor (acc acc' b b' : Byte) :
    crcByte (acc ^^^ acc') (b ^^^ b') = crcByte acc b ^^^ crcByte acc' b' := by
  simp only [crcByte_eq_xor, crcShifts_xor]
  ac_rfl

/-- `CRC_POLY` is odd, so a shift step loses nothing: the bit shifted out comes back in bit 0. -/
theorem eq_zero_of_crcShift : ∀ x : Byte, crcShift x = 0#8 → x = 0#8 := by decide

theorem eq_zero_of_crcShifts {n : Nat} {x : Byte} (h : crcShifts n x = 0#8) : x = 0#8 := by
  induction n generalizing x with
  | zero => exact h
  | succ n ih => exact eq_zero_of_crcShift x (ih h)

/-- Linear with kernel zero, hence injective. -/
theorem crcShifts_injective (n : Nat) : Function.Injective (crcShifts n) := fun x y h =>
  BitVec.xor_eq_zero_iff.1 (eq_zero_of_crcShifts ((crcShifts_xor n x y).trans (BitVec.xor_eq_zero_iff.2 h)))

theorem crcByte_injective_left (b : Byte) : Function.Injective fun acc => crcByte acc b := fun _ _ h =>
  (BitVec.xor_left_inj b).1 (crcShifts_injective 8 h)

theorem crcByte_injective_right (acc : Byte) : Function.Injective (crcByte acc) := fun _ _ h =>
  (BitVec.xor_right_inj acc).1 (crcShifts_injective 8 h)

/-! ## The fold over a sequence (rule R71) -/

theorem crcFold_injective (s : List Byte) : Function.Injective fun acc => crcFold acc s := by
  induction s with
  | nil => exact fun _ _ h => h
  | cons b s ih => exact fun _ _ h => crcByte_injective_left b (ih h)

theorem crcFold_zipWith_xor {s t : List Byte} (h : s.length = t.length) (acc acc' : Byte) :
    crcFold (acc ^^^ acc') (List.zipWith (· ^^^ ·) s t) = crcFold acc s ^^^ crcFold acc' t := by
  induction s generalizing t acc acc' with
  | nil =>
    obtain rfl := List.eq_nil_of_length_eq_zero h.symm
    rfl
  | cons b s ih =>
    cases t with
    | nil => cases h
    | cons b' t =>
      rw [List.zipWith_cons_cons, crcFold_cons, crcFold_cons, crcFold_cons, crcByte_xor_xor]
      exact ih (Nat.succ.inj h) _ _

@[simp] theorem checksum_replicate_zero (n : Nat) : checksum (List.replicate n 0#8) = 0#8 := by
  induction n with
  | zero => rfl
  | succ n ih => exact ih

theorem checksum_replicate_zero_append (n : Nat) (s : List Byte) :
    checksum (List.replicate n 0#8 ++ s) = checksum s := by
  rw [checksum_append, checksum_replicate_zero]
  rfl

theorem crcOk_replicate_zero_append (n : Nat) {s : List Byte} (h : s ≠ []) :
    crcOk (List.replicate n 0#8 ++ s) = crcOk s := by
  obtain ⟨rx, crc, rfl⟩ := (List.eq_nil_or_concat' s).resolve_left h
  rw [← List.append_assoc, crcOk_concat, crcOk_concat, checksum_replicate_zero_append]

theorem crcOk_replicate_zero (n : Nat) : crcOk (List.replicate (n + 1) 0#8) = true := by
  rw [List.replicate_succ', crcOk_concat, checksum_replicate_zero, beq_self_eq_true]

/-! ## The laws of rule R75 -/

/-- Settles O9: both are the shifts of `acc XOR b`. -/
theorem crcByteEqualsTable : Obligations.CrcByteEqualsTable := by
  intro acc b
  rw [crcByteByTable, crcTable_eq_map, List.getElem?_map, List.getElem?_range (acc ^^^ b).isLt,
    Option.map_some, BitVec.ofNat_toNat, BitVec.setWidth_eq]
  rfl

/-- Settles O10: the last step XORs the checksum into itself. -/
theorem checksumSelfCheckIsZero : Obligations.ChecksumSelfCheckIsZero := fun s =>
  (checksum_append s _).trans (crcByte_self _)

/-- Settles O11. -/
theorem checksumIsLinear : Obligations.ChecksumIsLinear :=
  ⟨fun _ _ h => crcFold_zipWith_xor h 0x00 0x00,
    fun _ _ => congrArg (crcShifts 8) BitVec.zero_xor.symm⟩

/-- A mask of one bit is not zero. -/
theorem one_shiftLeft_ne_zero : ∀ k : Fin 8, 1#8 <<< k.val ≠ 0#8 := by decide

/-- Settles O12: the byte step and the fold of the bytes behind it are injective, so equal checksums come
from equal bytes. -/
theorem singleBitErrorIsCaught : Obligations.SingleBitErrorIsCaught := by
  intro s t b k h
  rw [checksum_append, checksum_append] at h
  have hb : b ^^^ (1#8 <<< k.val) = b := crcByte_injective_right _ (crcFold_injective t h)
  exact one_shiftLeft_ne_zero k (by simpa using hb)

/-- Settles O13. -/
theorem leadingZerosAreInvisible : Obligations.LeadingZerosAreInvisible :=
  ⟨checksum_replicate_zero_append, fun n _ => crcOk_replicate_zero_append n, crcOk_replicate_zero⟩

end Sys2Proof.Machine
end

section
/-! `CRC_ACC` along a run (rule R74): every step keeps the checksum that the accumulator and the CRC.BYTE
commands still scheduled make up. Then the results of CRC.INIT and CRC.BYTE. -/

namespace Sys2Proof.Machine

/-! ## The checksum ahead (rule R74) -/

/-- What `CRC_ACC` will be once the CRC.BYTE commands still scheduled have run. -/
def State.crcAhead (s : State) : Byte := crcFold s.crcAcc (crcBytesOfEvents s.schedule)

/-- Nothing scheduled starts the accumulator anew. -/
def State.crcUndisturbed (s : State) : Prop := ∀ e ∈ s.schedule, restartsCrc e = false

theorem crcBytesOfEvents_cons (e : Event) (es : List Event) :
    crcBytesOfEvents (e :: es) = crcByteOfEvent e ++ crcBytesOfEvents es := List.flatMap_cons

/-- Only a word that decodes to CRC.BYTE brings a byte. -/
theorem crcByteOfEvent_hostWrite_eq_nil {n : Nat} {c : Word}
    (h : n = 0x00 → decodeCommand c ≠ .ok (.crcByte (vField c))) :
    crcByteOfEvent (.hostWrite n c) = [] :=
  if_neg fun ⟨hn, hs⟩ => h hn (decodeCommand_crcByte hs)

/-- A command word other than that of CRC.INIT folds the byte it brings, if any, into `CRC_ACC`. -/
theorem ExecCase.crcAcc_of_command {c : Word} {i : Instr} {s t : State} (he : ExecCase i s t)
    (hd : decodeCommand c = .ok i) (hr : restartsCrc (.hostWrite 0x00 c) = false) :
    t.crcAcc = crcFold s.crcAcc (crcByteOfEvent (.hostWrite 0x00 c)) := by
  by_cases hc : rowCrcByte.selects c = true
  · rw [decodeCommand_crcByte hc] at hd
    cases hd
    cases he
    rw [crcByteOfEvent, if_pos ⟨rfl, hc⟩]
    rfl
  · have hb : ∀ b, i ≠ .crcByte b := by
      rintro b rfl
      exact hc (selects_of_decodeCommand_crcByte hd).1
    have hi : i ≠ .crcInit := by
      rintro rfl
      obtain rfl := eq_zero_of_decodeCommand_crcInit hd
      exact absurd hr (by decide)
    rw [he.crcAcc_frame hb hi, crcByteOfEvent, if_neg fun h => hc h.2]
    rfl

/-- A step that takes the event `e` and folds in the byte it brings leaves the checksum ahead. -/
theorem crcAhead_of_taken {s t : State} {e : Event} {rest : List Event} (hr : s.crcUndisturbed)
    (hs : s.schedule = e :: rest) (ht : t.schedule = rest)
    (ha : t.crcAcc = crcFold s.crcAcc (crcByteOfEvent e)) :
    t.crcUndisturbed ∧ t.crcAhead = s.crcAhead := by
  constructor
  · intro x hx
    exact hr x (by rw [hs, ← ht]; exact .tail _ hx)
  · rw [State.crcAhead, State.crcAhead, ht, ha, hs, crcBytesOfEvents_cons, crcFold_append]

/-- The block's move is none of the generator's. -/
theorem BlockCase.crcAhead {s t : State} (hb : BlockCase s t) (hr : s.crcUndisturbed) :
    t.crcUndisturbed ∧ t.crcAhead = s.crcAhead := by
  obtain ⟨hAcc, -, -, -, -, -, -, hSched, -⟩ := hb.effect.frame
  rw [State.crcUndisturbed, State.crcAhead, hAcc, hSched]
  exact ⟨hr, rfl⟩

/-- What a step takes from the schedule it has folded into `CRC_ACC`. -/
theorem step_crcAhead {s t : State} (h : step s = .next t) (hr : s.crcUndisturbed) :
    t.crcUndisturbed ∧ t.crcAhead = s.crcAhead := by
  have head : ∀ {e : Event} {rest : List Event}, s.schedule = e :: rest → restartsCrc e = false :=
    fun hs => hr _ (by rw [hs]; exact .head _)
  cases step_next_cases h with
  | own _ hb => exact hb.crcAhead hr
  | waiting _ _ hb => exact hb.crcAhead hr
  | @block _ rest hs hb =>
    obtain ⟨hu, ha⟩ := crcAhead_of_taken (t := s.withSchedule rest) hr hs rfl rfl
    exact ha ▸ hb.crcAhead hu
  | command hs hd he =>
    obtain ⟨-, hSched, -⟩ := he.outside_frame
    exact crcAhead_of_taken hr hs hSched (he.crcAcc_of_command hd (head hs))
  | illegal hs hd =>
    refine crcAhead_of_taken hr hs rfl ?_
    rw [crcByteOfEvent_hostWrite_eq_nil (by simp [hd])]
    rfl
  | ignored hs hn =>
    refine crcAhead_of_taken hr hs rfl ?_
    rw [crcByteOfEvent_hostWrite_eq_nil fun h0 => absurd h0 hn]
    rfl
  | read hs => exact crcAhead_of_taken hr hs rfl rfl
  | waited hs => exact crcAhead_of_taken hr hs rfl rfl
  | deliver hs => exact crcAhead_of_taken hr hs rfl rfl
  | @deliverForever n rest hs =>
    obtain ⟨hu, ha⟩ := crcAhead_of_taken (t := s.withSchedule rest) hr hs rfl rfl
    refine ⟨?_, ha⟩
    rintro x (_ | ⟨_, _ | ⟨_, hx⟩⟩)
    · rfl
    · rfl
    · exact hu x hx
  | reset hs => exact absurd (head hs) (by simp [restartsCrc])
  | opened hs => exact crcAhead_of_taken hr hs rfl rfl

theorem runSteps_succ_next {k : Nat} {s t : State} (h : runSteps (k + 1) s = .next t) :
    ∃ u, step s = .next u ∧ runSteps k u = .next t := by
  cases hs : step s with
  | next u => exact ⟨u, rfl, runSteps_succ_of_step hs k ▸ h⟩
  | fault r => simp [runSteps, hs] at h
  | refused r => simp [runSteps, hs] at h

theorem runSteps_crcAhead {k : Nat} {s t : State} (h : runSteps k s = .next t)
    (hr : s.crcUndisturbed) : t.crcAhead = s.crcAhead := by
  induction k generalizing s with
  | zero => cases h; rfl
  | succ k ih =>
    obtain ⟨u, hs, h⟩ := runSteps_succ_next h
    obtain ⟨hu, ha⟩ := step_crcAhead hs hr
    exact (ih h hu).trans ha

/-- A step that takes CRC.INIT and is not refused starts the fold at `CRC_INIT` (rules R71, R72). -/
theorem step_crcInit_next {s u : State} {es : List Event}
    (hs : s.schedule = .hostWrite 0x00 0x00000000 :: es) (h : step s = .next u) :
    u.schedule = es ∧ u.crcAcc = Config.crcInit := by
  have hd : decode (.command 0x00000000) = .ok .crcInit := rfl
  rw [(stepRunsDecodedInstruction s es .crcInit).1 _ hs hd] at h
  cases exec_next_cases h
  exact ⟨rfl, rfl⟩

/-- Settles O17: after CRC.INIT the checksum of the bytes to come is ahead, every step keeps what is ahead,
and at the end of the schedule it is `CRC_ACC` itself. -/
theorem streamingChecksumOfARun : Obligations.StreamingChecksumOfARun := by
  intro k s t es hr hs h ht hk
  obtain ⟨k, rfl⟩ := Nat.exists_eq_add_one_of_ne_zero hk.ne'
  obtain ⟨u, hstep, hrun⟩ := runSteps_succ_next h
  obtain ⟨hSched, hAcc⟩ := step_crcInit_next hs hstep
  subst hSched
  calc t.crcAcc = t.crcAhead := by rw [State.crcAhead, ht]; rfl
    _ = u.crcAhead := runSteps_crcAhead hrun hr
    _ = checksum (crcBytesOfEvents u.schedule) := by rw [State.crcAhead, hAcc, checksum]

/-! ## The commands (rules R72, R73) -/

/-- Settles O15: the words of OP 0 other than that of CRC.INIT select no row, for the rows have different
opcodes. -/
theorem crcInitResult : Obligations.CrcInitResult := by
  refine ⟨by decide, fun c ho hc => ?_,
    fun s => ⟨fun h => whenIdle_of_idle h _, fun h => whenIdle_of_busy h _⟩⟩
  cases hd : decodeCommand c with
  | ok i =>
    obtain ⟨row, hrow, hs⟩ := (decodeCommand_ok_iff_selects c).1 ⟨i, hd⟩
    obtain rfl : row = rowCrcInit := row_eq_of_opField row hrow rowCrcInit (.head _)
      ((opField_of_selects hrow hs).symm.trans ho)
    exact absurd ((selects_crcInit_iff c).1 hs) hc
  | error e =>
    rw [(decodeCommand_error hd).2, rejectCommand, ho]
    rfl

theorem encode_crcByte (b : Byte) :
    encode (.crcByte b) = .command (0x10000000#32 ||| b.zeroExtend 32) := by
  simp [encode, commandWord]

/-- Settles O16. -/
theorem crcByteResult : Obligations.CrcByteResult :=
  ⟨encode_crcByte, fun _ _ => ⟨fun h => whenIdle_of_idle h _, fun h => whenIdle_of_busy h _⟩,
    by decide, crcByte_self, by decide, by decide⟩

end Sys2Proof.Machine
end

section
/-! The frame codec (41_frame_codec.md): requests, the address byte, and the CRC test. A sequence passes the
test exactly when its own checksum is zero, for a byte step is zero only of the accumulator itself. -/

namespace Sys2Proof.Machine

/-! ## Requests (rules R80, R112) -/

theorem argumentInvalid_iff (a r v : Nat) :
    argumentInvalid a r v = true ↔ a > 63 ∨ r > 255 ∨ v > 255 := by
  simp [argumentInvalid, or_assoc]

/-- The write bit stands below the shifted address, so the two add up (rules R51, R80). -/
theorem addressByte_eq_ofNat (a : Nat) (w : Bool) :
    addressByte a w = BitVec.ofNat 8 (2 * a + (if w then 1 else 0)) := by
  have hw : (if w then 1 else 0) < 2 ^ 1 := by cases w <;> decide
  rw [addressByte, ← Nat.shiftLeft_add_eq_or_of_lt hw, Nat.shiftLeft_eq, pow_one, Nat.mul_comm]

theorem encodeRequest_of_valid {a r v : Nat} (w : Bool) (h : ¬(a > 63 ∨ r > 255 ∨ v > 255)) :
    encodeRequest a r v w = some (if w then requestHead a r v w ++ [checksum (requestHead a r v w)]
      else requestHead a r v w) := by
  rw [encodeRequest, if_neg (mt (argumentInvalid_iff a r v).1 h)]
  cases w <;> rfl

theorem encodeRequest_eq_none_iff (a r v : Nat) (w : Bool) :
    encodeRequest a r v w = none ↔ a > 63 ∨ r > 255 ∨ v > 255 := by
  refine ⟨fun h => ?_, fun h => encodeRequest_invalid ((argumentInvalid_iff a r v).2 h)⟩
  by_contra hv
  rw [encodeRequest_of_valid w hv] at h
  cases h

/-- Settles O20. -/
theorem encodeRequestResult : Obligations.EncodeRequestResult := by
  intro a r v w
  refine ⟨encodeRequest_eq_none_iff a r v w, fun h => ?_⟩
  rw [encodeRequest_of_valid w h, requestHead, addressByte_eq_ofNat]

/-! ## The address byte (rule R82) -/

/-- Bits 6:1 as a number. -/
theorem addrField_eq_ofNat (b : Byte) : addrField b = BitVec.ofNat 6 (b.toNat / 2) := by
  rw [addrField, BitVec.extractLsb', Nat.shiftRight_eq_div_pow, pow_one]

/-- The fields of rule R82 cover the byte. -/
theorem joinAddr_fields : ∀ b : Byte, joinAddr (blkField b) (addrField b) (wrField b) = b := by decide

theorem decodeAddr_joinAddr (blk : Bool) (addr : BitVec 6) (wr : Bool) :
    decodeAddr (joinAddr blk addr wr) = (blk, addr, wr) := by
  rw [decodeAddr, blkField_joinAddr, addrField_joinAddr, wrField_joinAddr]

/-- Settles O21: the address byte of rule R80 is its fields put together. -/
theorem addressByteRoundTrip : Obligations.AddressByteRoundTrip := by
  refine ⟨fun b => ?_, fun a w h => ?_, joinAddr_fields⟩
  · rw [decodeAddr, addrField_eq_ofNat]
    rfl
  · rw [addressByte_eq_joinAddr a w h, decodeAddr_joinAddr]

/-! ## ENC (rule R81) -/

/-- An operand up to 255 keeps its value from the 8-bit field to the word. -/
theorem setWidth_ofNat_of_le {n : Nat} (h : n ≤ 255) :
    (BitVec.ofNat 8 n).setWidth 32 = BitVec.ofNat 32 n :=
  BitVec.setWidth_ofNat_of_le_of_lt (by decide) (Nat.lt_succ_of_le h)

theorem encode_enc {a r v : Nat} (w : Bool) (ha : a ≤ 255) (hr : r ≤ 255) (hv : v ≤ 255) :
    encode (.enc a r v w) = .command
      (0x20000000#32 ||| ((if w then 1#32 else 0#32) <<< 24) ||| (BitVec.ofNat 32 a <<< 16) |||
        (BitVec.ofNat 32 r <<< 8) ||| BitVec.ofNat 32 v) := by
  rw [encode, commandWord, setWidth_ofNat_of_le ha, setWidth_ofNat_of_le hr, setWidth_ofNat_of_le hv]
  cases w <;> rfl

section
variable {a r v : Nat} {w : Bool} {s : State}

theorem exec_enc_of_invalid (hi : s.phase = .idle) (hf : encodeRequest a r v w = none) :
    exec (.enc a r v w) s = .next (s.raiseEnc .invalidArgument) := by
  rw [exec, execEnc, whenIdle_of_idle hi, hf]
  rfl

theorem exec_enc_of_built {f : List Byte} (hi : s.phase = .idle)
    (hf : encodeRequest a r v w = some f) :
    exec (.enc a r v w) s = .next (s.setTxBuf f).finishOk := by
  rw [exec, execEnc, whenIdle_of_idle hi, hf]

end

/-- Settles O22: `encode_request` decides between the two outcomes of ENC. -/
theorem encResult : Obligations.EncResult := by
  refine ⟨fun a r v w => encode_enc w, fun a r v w s => ⟨fun hi hv => ?_, fun hi ha hr hv => ?_,
    fun hb => whenIdle_of_busy hb _⟩, by decide +kernel, by decide⟩
  · exact exec_enc_of_invalid hi ((encodeRequest_eq_none_iff a r v w).2 hv)
  · have hf := encodeRequest_of_valid w (a := a) (r := r) (v := v) (by omega)
    exact ⟨_, hf, encodeRequest_length hf, exec_enc_of_built hi hf⟩

/-! ## DEC (rule R83) -/

theorem encode_dec (b : Byte) : encode (.dec b) = .command (0x30000000#32 ||| b.zeroExtend 32) := by
  simp [encode, commandWord]

/-- Settles O23. -/
theorem decResult : Obligations.DecResult := by
  refine ⟨encode_dec, fun b s => ⟨fun hi => ?_, fun hb => whenIdle_of_busy hb _⟩⟩
  rw [← addrField_eq_ofNat]
  exact whenIdle_of_idle hi _

/-! ## The CRC test (rules R84, R95, R139) -/

/-- A byte step ends at zero only when the byte is the accumulator. -/
theorem checksum_concat_eq_zero_iff (rx : List Byte) (crc : Byte) :
    checksum (rx ++ [crc]) = 0#8 ↔ crc = checksum rx := by
  have hlast : checksum (rx ++ [crc]) = crcByte (checksum rx) crc := checksum_append rx [crc]
  rw [hlast, ← crcByte_self (checksum rx)]
  exact (crcByte_injective_right _).eq_iff

/-- Settles O14. -/
theorem crcOkExactlyWhenChecksumZero : Obligations.CrcOkExactlyWhenChecksumZero := by
  intro s hs
  obtain ⟨rx, crc, rfl⟩ := (List.eq_nil_or_concat' s).resolve_left hs
  rw [crcOk_concat, beq_iff_eq]
  exact (checksum_concat_eq_zero_iff rx crc).symm

/-- The judgement of collected bytes (rule R95) by their checksum. -/
theorem check_code_eq_ok_iff {s : State} (ho : s.opLatch ≠ .transaction .rdnc) (hb : s.rxBuf ≠ []) :
    s.check.code = .ok ↔ checksum s.rxBuf = 0#8 := by
  rcases check_cases s with ⟨hr, -⟩ | ⟨-, hn, -⟩ | ⟨rx, crc, -, hrx, hc, he⟩ |
    ⟨rx, crc, -, hrx, hc, he⟩
  · exact absurd hr ho
  · exact absurd hn hb
  · rw [he, hrx, checksum_concat_eq_zero_iff]
    exact iff_of_true rfl hc
  · rw [he, hrx, checksum_concat_eq_zero_iff]
    exact iff_of_false nofun hc

theorem blockStep_of_check {s : State} (hp : s.phase = .check) : blockStep s = .next s.check := by
  rw [blockStep, hp]

/-- Settles O45. -/
theorem okMeansChecksumZero : Obligations.OkMeansChecksumZero := by
  intro s t hp ho hb h
  rw [blockStep_of_check hp] at h
  cases h
  exact check_code_eq_ok_iff ho hb

end Sys2Proof.Machine
end

section
/-! The block's move told by its effect (rules R91 to R95), and deliveries beside it (rule R99). -/

namespace Sys2Proof.Machine

/-! ## The phases (rules R92 to R95) -/

/-- The effects of `BlockEffect` are the answers of the block's step: each premise decides its branch. -/
theorem BlockEffect.blockStep_eq {s t : State} (h : BlockEffect s t) : blockStep s = .next t := by
  cases h with
  | idle hp => rw [blockStep, hp]
  | sent hp =>
    rw [blockStep, hp]
    cases hd : decodeRequest s.txBuf with
    | ok i => exact exec_of_txBuf hp hd
    | error _ => rfl
  | settled hp => rw [blockStep, hp]
  | drained hp hf => simp only [blockStep, hp, State.collect, hf]
  | overflowed hp hf hc =>
    simp only [blockStep, hp, State.collect, hf, State.rxLen, (rxFull_iff _).2 hc, if_true,
      State.raise_transaction]
  | taken hp hf hc =>
    simp only [blockStep, hp, State.collect, hf, State.rxLen, mt (rxFull_iff _).1 hc,
      Bool.false_eq_true, if_false]
  | unjudged hp ho => rw [blockStep_of_check hp, State.check, if_pos ho]
  | unanswered hp ho hb => simp [blockStep_of_check hp, State.check, State.checkCrc, ho, hb]
  | matched hp ho hb hc => simp [blockStep_of_check hp, State.check, State.checkCrc, ho, hb, hc]
  | mismatched hp ho hb hc => simp [blockStep_of_check hp, State.check, State.checkCrc, ho, hb, hc]

theorem blockStep_eq_next_iff (s t : State) : blockStep s = .next t ↔ BlockEffect s t :=
  ⟨fun h => (blockStep_next_cases h).effect, BlockEffect.blockStep_eq⟩

/-- Settles O41. -/
theorem txPhaseSendsTheFrame : Obligations.TxPhaseSendsTheFrame :=
  fun _ hp => (BlockEffect.sent hp).blockStep_eq

/-- Settles O42. -/
theorem settlePhaseIsAlwaysEnabled : Obligations.SettlePhaseIsAlwaysEnabled :=
  fun _ hp => (BlockEffect.settled hp).blockStep_eq

/-- Settles O43. -/
theorem rxPhaseCollects : Obligations.RxPhaseCollects := fun _ hp =>
  ⟨fun hf => (BlockEffect.drained hp hf).blockStep_eq,
    fun _ _ hf hc => (BlockEffect.taken hp hf hc).blockStep_eq,
    fun _ _ hf hc => (BlockEffect.overflowed hp hf hc).blockStep_eq⟩

/-- Settles O44. -/
theorem checkPhaseJudges : Obligations.CheckPhaseJudges := fun _ hp =>
  ⟨fun ho => (BlockEffect.unjudged hp ho).blockStep_eq,
    fun ho hb => (BlockEffect.unanswered hp ho hb).blockStep_eq,
    fun _ _ ho hb hc => (BlockEffect.matched hp ho hb hc).blockStep_eq,
    fun _ _ ho hb hc => (BlockEffect.mismatched hp ho hb hc).blockStep_eq⟩

/-! ## Deliveries (rule R99) -/

/-- Only phase RX looks at `RXFIFO`. -/
theorem BlockEffect.deliver {s t : State} (h : BlockEffect s t) (hn : s.phase ≠ .rx)
    (bytes : List Byte) : BlockEffect (s.deliver bytes) (t.deliver bytes) := by
  cases h with
  | idle hp => exact .idle hp
  | sent hp => exact .sent hp
  | settled hp => exact .settled hp
  | drained hp => exact absurd hp hn
  | overflowed hp => exact absurd hp hn
  | taken hp => exact absurd hp hn
  | unjudged hp ho => exact .unjudged hp ho
  | unanswered hp ho hb => exact .unanswered hp ho hb
  | matched hp ho hb hc => exact .matched (s := s.deliver bytes) hp ho hb hc
  | mismatched hp ho hb hc => exact .mismatched (s := s.deliver bytes) hp ho hb hc

/-- Settles O57. -/
theorem deliveryCommutesOutsideRx : Obligations.DeliveryCommutesOutsideRx := fun s t bytes hn h =>
  (((blockStep_eq_next_iff s t).1 h).deliver hn bytes).blockStep_eq

end Sys2Proof.Machine
end

section
/-! Acceptance of RD, RDNC and WR (rules R91, R96 to R98). -/

namespace Sys2Proof.Machine

/-! ## The two outcomes, and the refusal while busy (rule R91) -/

theorem exec_transInstr (op : TransOp) (a r v : Nat) (s : State) :
    exec (transInstr op a r v) s = execTransaction op a r v s := by
  cases op <;> rfl

section
variable {op : TransOp} {a r v : Nat} {s : State}

theorem exec_transInstr_of_invalid (hp : s.phase = .idle) (ho : s.transportOpen = true)
    (hf : encodeRequest a r v (transWrites op) = none) :
    exec (transInstr op a r v) s =
      .next (s.clearForTransaction.raiseTransaction .invalidArgument) := by
  rw [exec_transInstr, execTransaction, whenIdle_of_idle hp, if_pos ho, State.acceptTransaction, hf]
  rfl

theorem exec_transInstr_of_built {f : List Byte} (hp : s.phase = .idle)
    (ho : s.transportOpen = true) (hf : encodeRequest a r v (transWrites op) = some f) :
    exec (transInstr op a r v) s = .next (s.clearForTransaction.startTransaction op f) := by
  rw [exec_transInstr, execTransaction, whenIdle_of_idle hp, if_pos ho, State.acceptTransaction, hf]

end

/-- No word is taken while the block is busy: each row's command asks for IDLE, and so does an illegal
word. -/
theorem presentCommand_of_busy {s : State} (hp : s.phase ≠ .idle) (c : Word) :
    presentCommand c s = .refused .commandWhileBusy := by
  rw [presentCommand]
  cases hd : decodeCommand c with
  | error e => exact whenIdle_of_busy hp _
  | ok i =>
    rcases decodeCommand_ok hd with ⟨-, rfl⟩ | ⟨-, rfl⟩ | ⟨-, rfl⟩ | ⟨-, rfl⟩ | ⟨-, rfl⟩ | ⟨-, rfl⟩ |
      ⟨-, rfl⟩ <;> exact whenIdle_of_busy hp _

/-- Settles O36. -/
theorem transactionAcceptance : Obligations.TransactionAcceptance := by
  refine ⟨fun op a r v s => ⟨exec_transInstr_of_invalid, fun _ => exec_transInstr_of_built,
    fun hb => ?_⟩, fun s c rest hb hs => ?_⟩
  · rw [exec_transInstr]
    exact whenIdle_of_busy hb _
  · rw [step, hs]
    exact presentCommand_of_busy (s := s.withSchedule rest) hb c

/-! ## The frames (rules R96 to R98) -/

section
variable {a r v : Nat} (ha : a ≤ 63) (hr : r ≤ 255) (hv : v ≤ 255)
include ha hr hv

theorem encodeRequest_read : encodeRequest a r v false =
    some [BitVec.ofNat 8 (2 * a), BitVec.ofNat 8 r, BitVec.ofNat 8 v] :=
  (encodeRequestResult a r v false).2 (by omega)

theorem encodeRequest_write : encodeRequest a r v true =
    some [BitVec.ofNat 8 (2 * a + 1), BitVec.ofNat 8 r, BitVec.ofNat 8 v,
      checksum [BitVec.ofNat 8 (2 * a + 1), BitVec.ofNat 8 r, BitVec.ofNat 8 v]] :=
  (encodeRequestResult a r v true).2 (by omega)

end

/-- Settles O37. -/
theorem rdAcceptedWithItsFrame : Obligations.RdAcceptedWithItsFrame :=
  fun _ _ _ _ hp ho ha hr hn =>
    ⟨_, exec_transInstr_of_built (op := .rd) hp ho (encodeRequest_read ha hr hn),
      rfl, rfl, rfl, rfl, rfl, rfl, rfl⟩

/-- Settles O38: `RDNC` has the frame of `RD`. -/
theorem rdncAcceptedWithItsFrame : Obligations.RdncAcceptedWithItsFrame :=
  fun _ _ _ _ hp ho ha hr hn =>
    ⟨_, exec_transInstr_of_built (op := .rdnc) hp ho (encodeRequest_read ha hr hn),
      rfl, rfl, rfl, rfl, rfl, rfl, rfl⟩

/-- Settles O39. -/
theorem wrAcceptedWithItsFrame : Obligations.WrAcceptedWithItsFrame :=
  fun _ _ _ _ hp ho ha hr hv =>
    ⟨_, _, exec_transInstr_of_built (op := .wr) hp ho (encodeRequest_write ha hr hv),
      rfl, rfl, rfl, rfl, rfl, rfl, rfl, rfl⟩

/-- Settles O49: an acknowledgment has no payload, so its checksum is that of the three bytes of the
request. -/
theorem conformingAckIsTheRequest : Obligations.ConformingAckIsTheRequest := by
  intro a r v f h
  obtain ⟨-, -, -, rfl⟩ := encodeRequest_some h
  rfl

end Sys2Proof.Machine
end

section
/-! The end of a transaction (rules R102, R115): a block that works alone comes to rest within a bound, and
what an environment that delivers for ever makes of it. -/

namespace Sys2Proof.Machine

theorem step_of_own {s : State} (hs : s.schedule = []) : step s = blockStep s := by
  rw [step, hs]

theorem step_of_block {s : State} {rest : List Event} (hs : s.schedule = .block :: rest) :
    step s = blockStep (s.withSchedule rest) := by
  rw [step, hs]
  rfl

/-! ## The block alone (rule R102) -/

/-- A bound on the moves that a block working alone makes before it is in IDLE: one for each pending
byte and one for each phase to leave. -/
def State.movesLeft (s : State) : Nat :=
  match s.phase with
  | .idle => 0
  | .tx => s.rxFifo.length + 4
  | .settle => s.rxFifo.length + 3
  | .rx => s.rxFifo.length + 2
  | .check => 1

theorem State.movesLeft_le (s : State) : s.movesLeft ≤ s.rxFifo.length + 4 := by
  unfold State.movesLeft
  split <;> omega

theorem BlockEffect.movesLeft_lt {s t : State} (h : BlockEffect s t) (hp : s.phase ≠ .idle) :
    t.movesLeft < s.movesLeft := by
  cases h with
  | idle hi => exact absurd hi hp
  | _ => simp [State.movesLeft, *]

/-- With nothing scheduled the block comes to IDLE within the bound, and there has what its moves keep. -/
theorem runSteps_to_idle {P : State → Prop} (keeps : ∀ s t, P s → BlockEffect s t → P t) {s : State}
    (hs : s.schedule = []) (hP : P s) :
    ∃ k t, k ≤ s.movesLeft ∧ runSteps k s = .next t ∧ t.phase = .idle ∧ t.schedule = [] ∧ P t := by
  induction hn : s.movesLeft using Nat.strong_induction_on generalizing s with
  | _ n ih =>
    subst hn
    by_cases hp : s.phase = .idle
    · exact ⟨0, s, Nat.zero_le _, rfl, hp, hs, hP⟩
    · obtain ⟨u, hu, hc⟩ := blockStep_total s
      have hlt := hc.effect.movesLeft_lt hp
      obtain ⟨-, -, -, -, -, -, -, hSched, -⟩ := hc.effect.frame
      obtain ⟨k, t, hk, hrun, ht⟩ :=
        ih _ hlt (hSched.trans hs) (keeps s u hP hc.effect) rfl
      have hstep : step s = .next u := (step_of_own hs).trans hu
      exact ⟨k + 1, t, by omega, (runSteps_succ_of_step hstep k).trans hrun, ht⟩

/-- Each way back to IDLE sets `DONE` (rules R94, R95, R119). -/
theorem BlockEffect.done_of_idle {s t : State} (h : BlockEffect s t)
    (hs : s.phase = .idle → s.done = true) (ht : t.phase = .idle) : t.done = true := by
  cases h with
  | idle => exact hs ht
  | sent => cases ht
  | settled => cases ht
  | drained => cases ht
  | taken hp => exact hs ht
  | _ => rfl

/-! ## An environment that delivers for ever (rules R102, R115) -/

/-- The phases before the judgement: the block has not yet found `RXFIFO` empty. -/
def State.Awaiting (s : State) : Prop := s.phase = .tx ∨ s.phase = .settle ∨ s.phase = .rx

/-- The rounds of a delivery and a move until a buffer of `cap` bytes overflows: its free places, the
byte that finds none, and one for each phase to leave before RX. -/
def State.roundsLeft (cap : Nat) (s : State) : Nat :=
  match s.phase with
  | .tx => cap - s.rxBuf.length + 3
  | .settle => cap - s.rxBuf.length + 2
  | _ => cap - s.rxBuf.length + 1

theorem State.roundsLeft_pos (cap : Nat) (s : State) : 0 < s.roundsLeft cap := by
  unfold State.roundsLeft
  split <;> omega

theorem State.roundsLeft_le (cap : Nat) (s : State) : s.roundsLeft cap ≤ cap + 3 := by
  unfold State.roundsLeft
  split <;> omega

/-- Where a byte is pending, the block goes on awaiting, one round nearer to a full buffer, or its buffer
was full. -/
theorem BlockEffect.awaiting {s t : State} (h : BlockEffect s t) (ha : s.Awaiting)
    (hf : s.rxFifo ≠ []) :
    (t.Awaiting ∧ ∀ cap, Config.rxCap = some cap → s.rxBuf.length ≤ cap →
      t.rxBuf.length ≤ cap ∧ t.roundsLeft cap + 1 = s.roundsLeft cap) ∨
    (Config.rxCap = some s.rxBuf.length ∧ t = s.raiseTransaction .rxOverflow) := by
  cases h with
  | sent hp => exact .inl ⟨.inr (.inl rfl), fun _ _ hl => ⟨hl, by simp [State.roundsLeft, hp]⟩⟩
  | settled hp => exact .inl ⟨.inr (.inr rfl), fun _ _ hl => ⟨hl, by simp [State.roundsLeft, hp]⟩⟩
  | taken hp _ hc =>
    refine .inl ⟨.inr (.inr hp), fun cap hcap hl => ?_⟩
    have hlt : s.rxBuf.length < cap := hl.lt_of_ne fun he => hc (he ▸ hcap)
    exact ⟨by simpa using hlt, by simp [State.roundsLeft, hp]; omega⟩
  | overflowed _ _ hc => exact .inr ⟨hc, rfl⟩
  | drained _ he => exact absurd he hf
  | _ => simp [State.Awaiting, *] at ha

/-- Under the endless environment: its delivery is next, or it has delivered and the block is next. -/
def State.Endless (s : State) : Prop :=
  ∃ n rest, s.schedule = .deliverForever n :: rest ∨
    (s.schedule = .block :: .deliverForever n :: rest ∧ s.rxFifo ≠ [])

/-- With `RX_CAP` unbounded the endless environment keeps the transaction running. -/
theorem step_of_endless (hc : Config.rxCap = none) {s : State} (ha : s.Awaiting) (he : s.Endless) :
    ∃ t, step s = .next t ∧ t.opLatch = s.opLatch ∧ t.Awaiting ∧ t.Endless := by
  obtain ⟨n, rest, hs | ⟨hs, hf⟩⟩ := he
  · obtain ⟨hne, hstep⟩ := (deliveryIsAlwaysEnabled s rest).2.1 n hs
    exact ⟨_, hstep, rfl, ha, n + 1, rest, .inr ⟨rfl, by simp [hne]⟩⟩
  · obtain ⟨t, ht, hb⟩ := blockStep_total (s.withSchedule (.deliverForever n :: rest))
    obtain ⟨-, -, -, -, -, hLatch, -, hSched, -⟩ := hb.effect.frame
    refine ⟨t, (step_of_block hs).trans ht, hLatch, ?_, n, rest, .inl hSched⟩
    exact ((hb.effect.awaiting ha hf).resolve_right fun ⟨h, _⟩ => by simp [hc] at h).1

theorem runSteps_of_endless (hc : Config.rxCap = none) (k : Nat) {s : State} (ha : s.Awaiting)
    (he : s.Endless) : ∃ t, runSteps k s = .next t ∧ t.opLatch = s.opLatch ∧ t.Awaiting := by
  induction k generalizing s with
  | zero => exact ⟨s, rfl, rfl, ha⟩
  | succ k ih =>
    obtain ⟨u, hu, hLatch, ha, he⟩ := step_of_endless hc ha he
    obtain ⟨t, ht, hl, ha⟩ := ih ha he
    exact ⟨t, (runSteps_succ_of_step hu k).trans ht, hl.trans hLatch, ha⟩

/-- With `RX_CAP` finite the endless environment fills the buffer, a round at a time, and one byte more
overflows it. -/
theorem runSteps_to_overflow {cap : Nat} (hc : Config.rxCap = some cap) {s : State} {n : Nat}
    {rest : List Event} (ha : s.Awaiting) (hl : s.rxBuf.length ≤ cap)
    (hs : s.schedule = .deliverForever n :: rest) :
    ∃ k t, k ≤ 2 * s.roundsLeft cap ∧ runSteps k s = .next t ∧ t.phase = .idle ∧ t.done = true ∧
      t.code = .rxOverflow := by
  induction hr : s.roundsLeft cap using Nat.strong_induction_on generalizing s n with
  | _ m ih =>
    subst hr
    obtain ⟨u, hu, hb⟩ := blockStep_total
      ((s.withSchedule (.deliverForever (n + 1) :: rest)).deliver (Config.endlessDelivery n))
    have hrun : runSteps 2 s = .next u := runSteps_two_of_deliverForever hs hu
    rcases hb.effect.awaiting ha (by simp) with ⟨hau, hround⟩ | ⟨-, rfl⟩
    · obtain ⟨hlu, hru⟩ : u.rxBuf.length ≤ cap ∧ u.roundsLeft cap + 1 = s.roundsLeft cap :=
        hround cap hc hl
      obtain ⟨-, -, -, -, -, -, -, hSched, -⟩ := hb.effect.frame
      obtain ⟨k, t, hk, hkt, ht⟩ := ih _ (by omega) hau hlu hSched rfl
      exact ⟨2 + k, t, by omega, (runSteps_add hrun k).trans hkt, ht⟩
    · exact ⟨2, _, Nat.mul_le_mul_left 2 (s.roundsLeft_pos cap), hrun, rfl, rfl, rfl⟩

/-- Settles O48. -/
theorem transactionEnds : Obligations.TransactionEnds := by
  refine ⟨fun s hp hs => ?_, fun s n rest hc ha hs k => ?_, fun s n cap rest hc ha hl hs => ?_⟩
  · obtain ⟨k, t, hk, hrun, ht, -, hd⟩ :=
      runSteps_to_idle (P := fun u => u.phase = .idle → u.done = true)
        (fun _ _ hu hb => hb.done_of_idle hu) hs (absurd · hp)
    exact ⟨k, t, hk.trans s.movesLeft_le, hrun, ht, hd ht⟩
  · exact runSteps_of_endless hc k ha ⟨n, rest, .inl hs⟩
  · obtain ⟨k, t, hk, ht⟩ := runSteps_to_overflow hc ha hl hs
    exact ⟨k, t, hk.trans (Nat.mul_le_mul_left 2 (s.roundsLeft_le cap)), ht⟩

end Sys2Proof.Machine
end

section
/-! A transaction in flight and the big-step rule (rules R90, R100): the states that the phases pass through,
each told by the bytes that count as collected and those that came too late, up to the state of
Sys2Proof/Machine/BigStep.lean. -/

namespace Sys2Proof.Machine

/-! ## The big-step rule by its branches (rule R90) -/

theorem exceedsRxCap_iff (n : Nat) :
    exceedsRxCap n = true ↔ ∃ cap, Config.rxCap = some cap ∧ cap < n := by
  unfold exceedsRxCap
  cases Config.rxCap <;> simp

theorem exceedsRxCap_eq_false_iff (n : Nat) :
    exceedsRxCap n = false ↔ ∀ cap, Config.rxCap = some cap → n ≤ cap := by
  rw [Bool.eq_false_iff, ne_eq, exceedsRxCap_iff]
  push Not
  rfl

theorem exceedsRxCap_zero : exceedsRxCap 0 = false :=
  (exceedsRxCap_eq_false_iff 0).2 fun _ _ => Nat.zero_le _

/-- Without an overflow nothing is left behind. -/
theorem leftAfterCollect_of_room {rx : List Byte} (h : exceedsRxCap rx.length = false) :
    leftAfterCollect rx = [] := by
  unfold leftAfterCollect
  unfold exceedsRxCap at h
  cases hc : Config.rxCap with
  | none => rfl
  | some cap => simpa [hc] using h

/-- A byte fits into a buffer that has not reached `RX_CAP`. -/
theorem exceedsRxCap_concat {rx : List Byte} (h : exceedsRxCap rx.length = false)
    (hc : Config.rxCap ≠ some rx.length) (b : Byte) : exceedsRxCap (rx ++ [b]).length = false := by
  rw [exceedsRxCap_eq_false_iff] at h ⊢
  intro cap hcap
  rw [List.length_append]
  exact (h cap hcap).lt_of_ne fun he => hc (he ▸ hcap)

section
variable {op : TransOp} {rx : List Byte}

theorem bigStep_of_overflow (h : exceedsRxCap rx.length = true) :
    bigStepCode op rx = .rxOverflow ∧ bigStepCrcPair op rx = (0x00, 0x00) :=
  ⟨if_pos h, if_pos h⟩

theorem bigStep_rdnc (h : exceedsRxCap rx.length = false) :
    bigStepCode .rdnc rx = .ok ∧ bigStepCrcPair .rdnc rx = (0x00, 0x00) := by
  simp [bigStepCode, bigStepCrcPair, h]

theorem bigStep_nil (h : exceedsRxCap ([] : List Byte).length = false) (ho : op ≠ .rdnc) :
    bigStepCode op [] = .noResponse ∧ bigStepCrcPair op [] = (0x00, 0x00) := by
  rw [bigStepCode, bigStepCrcPair, h]
  simp [ho]

theorem bigStep_concat {crc : Byte} (h : exceedsRxCap (rx ++ [crc]).length = false)
    (ho : op ≠ .rdnc) :
    bigStepCode op (rx ++ [crc]) = (if crc = checksum rx then .ok else .crcMismatch) ∧
      bigStepCrcPair op (rx ++ [crc]) = (crc, checksum rx) := by
  rw [bigStepCode, bigStepCrcPair, h]
  simp [ho, crcOk_concat]

end

/-! ## A transaction in flight (rules R91 to R95) -/

/-- The state of a transaction of `s` with the frame `f` in the phase `p`: what the line shows, what is
collected and pending, and what is scheduled. -/
def State.inFlight (op : TransOp) (f : List Byte) (p : Phase) (line rx pending : List Byte)
    (es : List Event) (s : State) : State :=
  { s.clearForTransaction.startTransaction op f with
      phase := p, lineTx := line, rxBuf := rx, rxFifo := pending, schedule := es }

/-- The big-step state with the bytes `late` behind what it leaves pending. -/
def State.ended (op : TransOp) (f rx late : List Byte) (es : List Event) (s : State) : State :=
  { bigStepSent op f rx s with rxFifo := leftAfterCollect rx ++ late, schedule := es }

theorem State.ended_eq {op : TransOp} {f rx left late : List Byte} {c : Code} {pair : Byte × Byte}
    (es : List Event) (s : State) (hl : leftAfterCollect rx = left)
    (ho : bigStepCode op rx = c ∧ bigStepCrcPair op rx = pair) :
    s.ended op f rx late es =
      { s with
          txBuf := f, opLatch := .transaction op, phase := .idle, done := true,
          lineTx := s.lineTx ++ f, rxFifo := left ++ late, code := c, rxValid := decide (c = .ok),
          rxBuf := if c = .ok then rx else [], crcRx := pair.1, crcCalc := pair.2,
          schedule := es } := by
  obtain ⟨rfl, rfl⟩ := ho
  subst hl
  rfl

section
variable {op : TransOp} {f rx late : List Byte} {es : List Event} {s : State}

/-- Phase CHECK ends where the big-step rule does. -/
theorem judged_inFlight (h : exceedsRxCap rx.length = false) :
    BlockEffect (s.inFlight op f .check (s.lineTx ++ f) rx late es) (s.ended op f rx late es) := by
  have hl := leftAfterCollect_of_room h
  by_cases ho : op = .rdnc
  · subst ho
    rw [State.ended_eq es s hl (bigStep_rdnc h)]
    exact .unjudged rfl rfl
  · have hne : OpLatch.transaction op ≠ .transaction .rdnc := fun he => ho (OpLatch.transaction.inj he)
    rcases List.eq_nil_or_concat' rx with rfl | ⟨rx, crc, rfl⟩
    · rw [State.ended_eq es s hl (bigStep_nil h ho)]
      exact .unanswered rfl hne rfl
    · rw [State.ended_eq es s hl (bigStep_concat h ho)]
      by_cases hc : crc = checksum rx
      · rw [if_pos hc]
        exact .matched rfl hne rfl hc
      · rw [if_neg hc]
        exact .mismatched rfl hne rfl hc

/-- Phase RX with a full buffer ends where the big-step rule does: the bytes without room stay pending. -/
theorem overflowed_inFlight {b : Byte} {rest : List Byte} (hc : Config.rxCap = some rx.length) :
    BlockEffect (s.inFlight op f .rx (s.lineTx ++ f) rx (b :: rest) es)
      (s.ended op f (rx ++ b :: rest) [] es) := by
  have hl : leftAfterCollect (rx ++ b :: rest) = b :: rest := by
    simp [leftAfterCollect, hc]
  have hx : exceedsRxCap (rx ++ b :: rest).length = true :=
    (exceedsRxCap_iff _).2 ⟨_, hc, by simp⟩
  rw [State.ended_eq es s hl (bigStep_of_overflow hx), List.append_nil]
  exact .overflowed rfl rfl hc

end

/-- The course of a transaction of `s` with the frame `f`, by the bytes `rx` that will have been pending
when the block finds no more of them, or no more room, and the bytes `late` that came after. -/
inductive Course (op : TransOp) (f : List Byte) (s : State) : List Byte → List Byte → State → Prop where
  | sending {pending : List Byte} {es : List Event} :
      Course op f s pending [] (s.inFlight op f .tx s.lineTx [] pending es)
  | settling {pending : List Byte} {es : List Event} :
      Course op f s pending [] (s.inFlight op f .settle (s.lineTx ++ f) [] pending es)
  | collecting {rx pending : List Byte} {es : List Event} (h : exceedsRxCap rx.length = false) :
      Course op f s (rx ++ pending) [] (s.inFlight op f .rx (s.lineTx ++ f) rx pending es)
  | checking {rx late : List Byte} {es : List Event} (h : exceedsRxCap rx.length = false) :
      Course op f s rx late (s.inFlight op f .check (s.lineTx ++ f) rx late es)
  | ended {rx late : List Byte} {es : List Event} :
      Course op f s rx late (s.ended op f rx late es)

section
variable {op : TransOp} {f rx late : List Byte} {s u t : State}

theorem Course.withSchedule (h : Course op f s rx late u) (es : List Event) :
    Course op f s rx late (u.withSchedule es) := by
  cases h with
  | sending => exact .sending
  | settling => exact .settling
  | collecting h => exact .collecting h
  | checking h => exact .checking h
  | ended => exact .ended

/-- The block's move is along the course. -/
theorem Course.move (h : Course op f s rx late u) :
    ∃ t, BlockEffect u t ∧ Course op f s rx late t := by
  cases h with
  | sending => exact ⟨_, .sent rfl, .settling⟩
  | settling => exact ⟨_, .settled rfl, .collecting (rx := []) exceedsRxCap_zero⟩
  | @collecting rx pending es h =>
    cases pending with
    | nil =>
      rw [List.append_nil]
      exact ⟨_, .drained rfl rfl, .checking h⟩
    | cons b rest =>
      by_cases hc : Config.rxCap = some rx.length
      · exact ⟨_, overflowed_inFlight hc, .ended⟩
      · rw [← List.singleton_append, ← List.append_assoc]
        exact ⟨_, .taken rfl rfl hc, .collecting (exceedsRxCap_concat h hc b)⟩
  | checking h => exact ⟨_, judged_inFlight h, .ended⟩
  | ended => exact ⟨_, .idle rfl, .ended⟩

theorem Course.of_blockEffect (h : Course op f s rx late u) (hb : BlockEffect u t) :
    Course op f s rx late t := by
  obtain ⟨t', hb', ht⟩ := h.move
  cases hb.blockStep_eq.symm.trans hb'.blockStep_eq
  exact ht

/-- A delivery counts as collected while the block has not gone on to CHECK, and as late after that. -/
theorem Course.deliver (h : Course op f s rx late u) (bytes : List Byte) :
    ∃ rx' late', rx' ++ late' = rx ++ late ++ bytes ∧ Course op f s rx' late' (u.deliver bytes) := by
  cases h with
  | sending => exact ⟨rx ++ bytes, [], by simp, .sending⟩
  | settling => exact ⟨rx ++ bytes, [], by simp, .settling⟩
  | @collecting rx pending _ h => exact ⟨rx ++ (pending ++ bytes), [], by simp, .collecting h⟩
  | checking h => exact ⟨rx, late ++ bytes, by simp, .checking h⟩
  | @ended _ _ es =>
    refine ⟨rx, late ++ bytes, by simp, ?_⟩
    have he : (s.ended op f rx late es).deliver bytes = s.ended op f rx (late ++ bytes) es := by
      simp [State.ended, State.deliver]
    exact he ▸ .ended

/-- Back in IDLE, the course is at its end. -/
theorem Course.eq_of_idle (h : Course op f s rx late t) (hp : t.phase = .idle) :
    t = s.ended op f rx late t.schedule := by
  cases h with
  | ended => rfl
  | _ => cases hp

end

/-! ## Runs of a transaction in every interleaving (rules R90, R99) -/

theorem deliveredBytes_append (es es' : List Event) :
    deliveredBytes (es ++ es') = deliveredBytes es ++ deliveredBytes es' := by
  induction es with
  | nil => rfl
  | cons e es ih => cases e <;> simp [deliveredBytes, ih]

/-- Only the block and the environment move. -/
def Quiet (es : List Event) : Prop := ∀ e ∈ es, e = .block ∨ ∃ bytes, e = .deliver bytes

section
variable {op : TransOp} {f rx late : List Byte} {s u t : State}

/-- A step takes the head of a quiet schedule, or nothing of an empty one, along the course. -/
theorem Course.of_step (h : Course op f s rx late u) (hq : Quiet u.schedule) (hs : step u = .next t) :
    ∃ past rx' late', u.schedule = past ++ t.schedule ∧
      rx' ++ late' = rx ++ late ++ deliveredBytes past ∧ Course op f s rx' late' t := by
  match he : u.schedule with
  | [] =>
    rw [step_of_own he] at hs
    have hb := (blockStep_eq_next_iff u t).1 hs
    obtain ⟨-, -, -, -, -, -, -, hSched, -⟩ := hb.frame
    exact ⟨[], rx, late, (hSched.trans he).symm, (List.append_nil _).symm, h.of_blockEffect hb⟩
  | e :: rest =>
    rcases hq e (he ▸ .head _) with rfl | ⟨bytes, rfl⟩
    · rw [step_of_block he] at hs
      have hb := (blockStep_eq_next_iff _ t).1 hs
      obtain ⟨-, -, -, -, -, -, -, hSched, -⟩ := hb.frame
      exact ⟨[.block], rx, late, hSched ▸ rfl, (List.append_nil _).symm,
        (h.withSchedule rest).of_blockEffect hb⟩
    · have hd : step u = .next ((u.withSchedule rest).deliver bytes) :=
        (deliveryIsAlwaysEnabled u rest).1 bytes he
      cases hd.symm.trans hs
      obtain ⟨rx', late', hsum, hc⟩ := (h.withSchedule rest).deliver bytes
      exact ⟨[.deliver bytes], rx', late', rfl, by simpa [deliveredBytes] using hsum, hc⟩

theorem Course.run {k : Nat} (h : Course op f s rx late u) (hq : Quiet u.schedule)
    (hr : runSteps k u = .next t) :
    ∃ past rx' late', u.schedule = past ++ t.schedule ∧
      rx' ++ late' = rx ++ late ++ deliveredBytes past ∧ Course op f s rx' late' t := by
  induction k generalizing u rx late with
  | zero =>
    cases hr
    exact ⟨[], rx, late, rfl, (List.append_nil _).symm, h⟩
  | succ k ih =>
    obtain ⟨v, hv, hr⟩ := runSteps_succ_next hr
    obtain ⟨past, rx₁, late₁, hs₁, hsum₁, h₁⟩ := h.of_step hq hv
    have hq₁ : Quiet v.schedule := fun x hx => hq x (hs₁ ▸ List.mem_append_right past hx)
    obtain ⟨past', rx₂, late₂, hs₂, hsum₂, h₂⟩ := ih h₁ hq₁ hr
    refine ⟨past ++ past', rx₂, late₂, ?_, ?_, h₂⟩
    · rw [hs₁, hs₂, List.append_assoc]
    · rw [hsum₂, hsum₁, deliveredBytes_append, List.append_assoc (rx ++ late)]

end

/-! ## The command and the deliveries before the block looks (rules R91, R100) -/

theorem runSteps_deliveries (ds : List (List Byte)) {s : State} {rest : List Event}
    (hs : s.schedule = ds.map .deliver ++ rest) :
    runSteps ds.length s = .next ((s.withSchedule rest).deliver ds.flatten) := by
  induction ds generalizing s with
  | nil =>
    obtain rfl : s.schedule = rest := hs
    simp [State.deliver, State.withSchedule]
  | cons bytes ds ih =>
    have hstep := (deliveryIsAlwaysEnabled s (ds.map Event.deliver ++ rest)).1 bytes hs
    refine (runSteps_succ_of_step hstep _).trans ((ih rfl).trans ?_)
    simp [State.deliver, State.withSchedule]

theorem transInstr_wellFormed (op : TransOp) {a r v : Nat} (ha : a ≤ 63) (hr : r ≤ 255)
    (hv : v ≤ 255) : (transInstr op a r v).WellFormed := by
  have ha' : a ≤ 255 := ha.trans (by decide)
  cases op <;> simp [transInstr, Instr.WellFormed, Instr.wellFormed, fitsField, ha', hr, hv]

/-- The step that takes a transaction's word from the schedule sets out on the course. -/
theorem step_of_transaction {op : TransOp} {a r v : Nat} {c : Word} {f : List Byte} {s : State}
    {es : List Event} (hp : s.phase = .idle) (ho : s.transportOpen = true) (ha : a ≤ 63)
    (hr : r ≤ 255) (hv : v ≤ 255) (hc : encode (transInstr op a r v) = .command c)
    (hs : s.schedule = .hostWrite 0x00 c :: es)
    (hf : encodeRequest a r v (transWrites op) = some f) :
    step s = .next (s.inFlight op f .tx s.lineTx [] s.rxFifo es) := by
  have hd : decode (.command c) = .ok (transInstr op a r v) :=
    hc ▸ decodeOfEncode _ (transInstr_wellFormed op ha hr hv)
  rw [(stepRunsDecodedInstruction s es _).1 c hs hd]
  exact exec_transInstr_of_built (s := s.withSchedule es) hp ho hf

theorem exists_encodeRequest {a r v : Nat} (w : Bool) (ha : a ≤ 63) (hr : r ≤ 255) (hv : v ≤ 255) :
    ∃ f, encodeRequest a r v w = some f :=
  ⟨_, encodeRequest_of_valid w (by omega)⟩

theorem bigStep_of_built {op : TransOp} {a r v : Nat} {f : List Byte} (rx : List Byte) (s : State)
    (hf : encodeRequest a r v (transWrites op) = some f) :
    bigStep op a r v rx s = bigStepSent op f rx s := by
  rw [bigStep, hf]

/-- When the deliveries are over before the block looks, the transaction ends in the big-step state for
all that is pending then. -/
theorem runSteps_transactionSchedule {op : TransOp} {a r v : Nat} {c : Word} {f : List Byte}
    {ds : List (List Byte)} {s : State} (hp : s.phase = .idle) (ho : s.transportOpen = true)
    (ha : a ≤ 63) (hr : r ≤ 255) (hv : v ≤ 255) (hc : encode (transInstr op a r v) = .command c)
    (hs : s.schedule = transactionSchedule c ds)
    (hf : encodeRequest a r v (transWrites op) = some f) :
    ∃ k, k ≤ s.rxFifo.length + ds.flatten.length + ds.length + 5 ∧
      runSteps k s = .next (bigStepSent op f (s.rxFifo ++ ds.flatten) { s with schedule := [] }) := by
  have h1 : step s = .next (s.inFlight op f .tx s.lineTx [] s.rxFifo (.block :: ds.map .deliver)) :=
    step_of_transaction hp ho ha hr hv hc hs hf
  have h2 : step (s.inFlight op f .tx s.lineTx [] s.rxFifo (.block :: ds.map .deliver)) =
      .next (s.inFlight op f .settle (s.lineTx ++ f) [] s.rxFifo (ds.map .deliver)) :=
    (step_of_block rfl).trans (BlockEffect.sent rfl).blockStep_eq
  have h3 : runSteps ds.length
      (s.inFlight op f .settle (s.lineTx ++ f) [] s.rxFifo (ds.map .deliver)) =
        .next (s.inFlight op f .settle (s.lineTx ++ f) [] (s.rxFifo ++ ds.flatten) []) :=
    runSteps_deliveries ds (List.append_nil _).symm
  obtain ⟨k, t, hk, h4, hidle, hSched, hcourse⟩ :=
    runSteps_to_idle (P := Course op f s (s.rxFifo ++ ds.flatten) [])
      (fun _ _ => Course.of_blockEffect)
      (s := s.inFlight op f .settle (s.lineTx ++ f) [] (s.rxFifo ++ ds.flatten) []) rfl .settling
  have hbound : k ≤ (s.rxFifo ++ ds.flatten).length + 3 := hk
  rw [List.length_append] at hbound
  refine ⟨ds.length + k + 1 + 1, by omega, ?_⟩
  rw [runSteps_succ_of_step h1, runSteps_succ_of_step h2, runSteps_add h3, h4,
    hcourse.eq_of_idle hidle, hSched, State.ended, List.append_nil]
  rfl

/-- Settles O46: a run from the command is a course, and in IDLE a course is at its end. -/
theorem transactionRefinesBigStep : Obligations.TransactionRefinesBigStep := by
  refine ⟨fun op a r v rx s hp ho hf => ?_, fun op a r v k c es s t hp ho ha hr hv hc hs hq hrun ht => ?_,
    fun op a r v c ds s hp ho ha hr hv hc hs => ?_⟩
  · rw [exec_transInstr_of_invalid hp ho hf, bigStep, hf]
    rfl
  · obtain ⟨f, hf⟩ := exists_encodeRequest (transWrites op) ha hr hv
    obtain ⟨u, hu, hrun⟩ := runSteps_succ_next hrun
    cases (step_of_transaction hp ho ha hr hv hc hs hf).symm.trans hu
    obtain ⟨past, rx, late, hes, hsum, hcourse⟩ := Course.sending.run hq hrun
    refine ⟨past, rx, late, hes, by simpa using hsum.symm, ?_⟩
    rw [bigStep_of_built rx s hf]
    exact hcourse.eq_of_idle ht
  · obtain ⟨f, hf⟩ := exists_encodeRequest (transWrites op) ha hr hv
    obtain ⟨k, hk, hrun⟩ := runSteps_transactionSchedule hp ho ha hr hv hc hs hf
    exact ⟨k, hk, by rw [bigStep_of_built _ _ hf, hrun]⟩

/-! ## The conforming environment (rules R52, R100) -/

/-- A conforming response fits: 3 echo bytes, at most 255 of payload and the CRC byte are the least
`RX_CAP` of rule R5. -/
theorem Conforming.room {op : TransOp} {a r v : Nat} {f payload resp : List Byte}
    (h : Conforming op v f payload resp) (hv : v ≤ 255)
    (hf : encodeRequest a r v (transWrites op) = some f) : exceedsRxCap resp.length = false := by
  obtain ⟨rfl, hlen⟩ := h
  have he : (f.take Config.echoLen).length = Config.echoLen := by
    rw [List.length_take, encodeRequest_length hf]
    cases transWrites op <;> rfl
  have hp : payload.length ≤ 255 := by
    rw [hlen]
    split <;> omega
  rw [exceedsRxCap_eq_false_iff, conformingResponse, length_parts he]
  exact fun cap hcap => (Nat.add_le_add_right hp 4).trans (rxCap_ge hcap)

/-- Settles O47: the conforming response is the bytes before its CRC byte and their checksum, so the
big-step rule ends in its matching branch. -/
theorem conformingTransactionEndsOk : Obligations.ConformingTransactionEndsOk := by
  intro op a r v c f payload resp ds s hop hp ho hfifo hr hv hf hc hconf hds hs
  obtain ⟨ha, -, -, -⟩ := encodeRequest_some hf
  obtain ⟨k, -, hrun⟩ := runSteps_transactionSchedule hp ho ha hr hv hc hs hf
  rw [hfifo, List.nil_append, hds] at hrun
  have hroom := hconf.room hv hf
  have hleft := leftAfterCollect_of_room hroom
  obtain ⟨rfl, -⟩ := hconf
  obtain ⟨hcode, hpair⟩ := bigStep_concat hroom hop
  rw [if_pos rfl] at hcode
  refine ⟨k, _, hrun, hcode, decide_eq_true hcode, if_pos hcode, rfl, rfl, ?_, hleft, rfl⟩
  exact (congrArg Prod.fst hpair).trans (congrArg Prod.snd hpair).symm

end Sys2Proof.Machine
end

section
/-! Taking a fault, and how long its values stand (rules R114, R119, R120). -/

namespace Sys2Proof.Machine

/-! ## The illegal word (rules R57, R114) -/

/-- A word that decodes to no command raises `ILLEGAL_COMMAND` in an idle block. -/
theorem presentCommand_of_illegal {s : State} {c : Word} {e : DecodeError} (hp : s.phase = .idle)
    (hd : decodeCommand c = .error e) :
    presentCommand c s = .next (s.raiseWord .illegalCommand) := by
  rw [presentCommand, hd]
  exact whenIdle_of_idle hp _

/-- A word that selects no row decodes to no command (rules R55, R57). -/
theorem decodeCommand_error_of_unselected {c : Word}
    (h : ∀ row ∈ commandRows, (c &&& row.mask) ≠ row.pattern) : ∃ e, decodeCommand c = .error e :=
  (decodeCommand_error_iff_selects c).2 fun ⟨row, hr, hs⟩ => h row hr (beq_iff_eq.1 hs)

/-! ## The block at rest (rule R130) -/

/-- In IDLE the block's move changes nothing: its step has one answer, and that is the state itself. -/
theorem BlockEffect.eq_of_idle {s t : State} (h : BlockEffect s t) (hp : s.phase = .idle) : t = s :=
  Host.Outcome.next.inj (h.blockStep_eq.symm.trans (BlockEffect.idle hp).blockStep_eq)

/-! ## The obligations -/

/-- Settles O50. -/
theorem illegalCommandChangesOnlyStatus : Obligations.IllegalCommandChangesOnlyStatus := by
  intro s c rest hp hrows hs
  obtain ⟨e, hd⟩ := decodeCommand_error_of_unselected hrows
  rw [step, hs]
  exact presentCommand_of_illegal (s := s.withSchedule rest) hp hd

/-- Settles O51. -/
theorem raiseWrites : Obligations.RaiseWrites := fun _ _ => ⟨rfl, rfl, rfl⟩

/-- Settles O52, by the kind of the step's mover: a block at rest changes nothing, and the host and the
environment write no register of the block but through `CMD` and the reset input. -/
theorem outcomeKeptUntilNextCommand : Obligations.OutcomeKeptUntilNextCommand := by
  intro s t hp h hcmd hreset
  cases step_next_kind h with
  | block hb =>
    rw [hb.eq_of_idle hp]
    exact ⟨rfl, rfl, rfl, rfl, rfl, rfl⟩
  | command hs => exact absurd hs (hcmd _ _)
  | illegal hs => exact absurd hs (hcmd _ _)
  | outside => exact ⟨rfl, rfl, rfl, rfl, rfl, rfl⟩
  | reset hs => exact absurd hs (hreset _ _)

end Sys2Proof.Machine
end

section
/-! The reset input and the transport's `open` as steps, and a transaction before the transport is open
(rules R130 to R132). -/

namespace Sys2Proof.Machine

/-! ## The step by the head of the schedule (rule R10) -/

section
variable {s : State} {rest : List Event}

/-- The agent at the head of the schedule moves. -/
theorem step_of_schedule_cons {e : Event} (hs : s.schedule = e :: rest) :
    step s = moveEvent e rest s := by
  rw [step, hs]

theorem step_of_reset {sent : Nat} (hs : s.schedule = .reset sent :: rest) :
    step s = .next ((s.withSchedule rest).resetBlock sent) :=
  step_of_schedule_cons hs

theorem step_of_openTransport_succeeded (hs : s.schedule = .openTransport true :: rest) :
    step s = .next (s.withSchedule rest).openTransport :=
  step_of_schedule_cons hs

theorem step_of_openTransport_failed (hs : s.schedule = .openTransport false :: rest) :
    step s = .fault .transportUnavailable :=
  step_of_schedule_cons hs

end

/-! ## A transaction without a transport (rule R132) -/

theorem exec_transInstr_of_closed {op : TransOp} {a r v : Nat} {s : State} (hp : s.phase = .idle)
    (ho : s.transportOpen = false) :
    exec (transInstr op a r v) s = .refused .transportNotOpen := by
  simp [exec_transInstr, execTransaction, hp, ho]

/-! ## The obligations -/

/-- Settles O4: the statement is `resetBlock` of the state without the event, written out. -/
theorem resetInputRestoresRegisters : Obligations.ResetInputRestoresRegisters :=
  fun _ _ _ hs => step_of_reset hs

/-- Settles O40. -/
theorem transportMustBeOpen : Obligations.TransportMustBeOpen :=
  ⟨fun _ _ _ _ _ hp ho => exec_transInstr_of_closed hp ho,
    fun _ _ => ⟨step_of_openTransport_succeeded, step_of_openTransport_failed⟩⟩

end Sys2Proof.Machine
end
